-- ==== Sys2Proof/Word.lean ====
section
/-! DEFINITION. The word types of the machine (R6, R35): bytes, 32-bit lane words, 64-bit scalar words. -/

namespace Sys2Proof

/-- One byte of memory. -/
abbrev Byte := BitVec 8
/-- A lane value (R63) or a mask of the 32 logical lanes (R91). -/
abbrev W32 := BitVec 32
/-- A scalar register, a uniform-queue entry or a generic address (R15, R79). -/
abbrev W64 := BitVec 64

end Sys2Proof
end

