-- ==== Sys2Proof/Syntax.lean ====
section
/-! DEFINITION. The instruction syntax: the three kinds of word (R42, R48, R55) and the events of the other agents. -/

namespace Sys2Proof

/-- R43, R149: access widths, coded 0 to 3. -/
inductive Width where
  | w8 | w16 | w32 | w64
  deriving DecidableEq, Repr

/-- R46: memory orderings, coded 0 to 4. -/
inductive Ord where
  | rlx | acq | rel | ar | sc
  deriving DecidableEq, Repr

/-- R46: scopes, coded 0 to 6. -/
inductive Scope where
  | lane | beam | block | cluster | die | pkg | sys
  deriving DecidableEq, Repr

/-- R28, R47: fence kinds, coded 0 to 3. -/
inductive FenceKind where
  | acq | rel | ar | sc
  deriving DecidableEq, Repr

/-- R46: read-modify-write operations, coded 0 to 8 (LOAD and STORE are rows of their own). -/
inductive Aop where
  | add | and | or | xor | min | max | minu | maxu | swap
  deriving DecidableEq, Repr

/-- R88, R55: the six conditions of SB and of GSKIP, coded 0 to 5. -/
inductive Cond where
  | eq | ne | lt | ge | ltu | geu
  deriving DecidableEq, Repr

/-- R363: the system registers. -/
inductive SysReg where
  | fmode | seed | ctr | dead | sor | retired | lanemap | passes | place | beamcfg
  | litpc | litst | shadepc | shadest | fragn | strm | cycles | reftime
  | trapvec | tcg | tdr0 | tdr1 | tdr2 | tpc | tlpc | skid | preq
  | poolpart | reserve | corepass | accown | acclive0 | acclive1 | acclive2 | acclive3
  | prog | mstat | mirst | taskst | diemem | caplist | tstamp0 | tstamp1 | fabnode | peerst0 | peerst1
  deriving DecidableEq, Repr

/-- R49: the operand and modifier fields of one lane operation. A short slot has `c = 0`, `imm = 0` and `m` below 128.
The fields hold the codes of R51; `Opnd.ofCode` names them. -/
structure LaneOp where
  long : Bool
  d : BitVec 9
  a : BitVec 9
  b : BitVec 9
  c : BitVec 9
  m : BitVec 10
  imm : W32
  deriving DecidableEq, Repr

/-- R222: why the ladder stops a context; the id of the record whose change caused it, where one did (R325). -/
inductive StopCause where
  | rebalance (id : Nat) | migration | teardown (id : Nat) | test
  deriving DecidableEq, Repr

/-- R276: what a patrol read of a line finds. -/
inductive EccFinding where
  | clean | corrected | uncorrectable
  deriving DecidableEq, Repr

/-- R280: a row of an HBM stack of a die. -/
structure RowId where
  die : Nat
  stack : Nat
  channel : Nat
  row : Nat
  deriving DecidableEq, Repr

/-- R284: a tapped event: its type code, fields 3 to 6 and fields 8 to 11 (the others follow from these and `reftime`). -/
structure LEvent where
  code : BitVec 6
  ctx : W32
  tenant : W32
  place : W32
  cycles : W32
  f8 : W32
  f9 : W32
  f10 : W32
  f11 : W32
  deriving DecidableEq, Repr

/-- R351: a Rhamen message: the header of its head flit, whether a reserved header field is nonzero, and its payload. -/
structure FMsg where
  op : BitVec 4
  aop : BitVec 4
  size : BitVec 8
  dst : BitVec 12
  src : BitVec 12
  tag : BitVec 16
  addr : BitVec 52
  poison : Bool
  reserved : Bool
  data : List Byte
  deriving DecidableEq, Repr

/-- R350: a flit: its 56 body bytes and the fields of its trailer. -/
structure Flit where
  body : List Byte
  lseq : BitVec 11
  vc : BitVec 2
  head : Bool
  idle : Bool
  nak : Bool
  ack : BitVec 11
  xoff : BitVec 4
  rsv : Bool
  crc : BitVec 32
  deriving DecidableEq, Repr

/-- R354, R355, R358: what the fabric manager and the trusted firmware set through VC 3. -/
inductive FMgmt where
  | assign (node : BitVec 12)
  | route (node port : Nat)
  | recoveryLimit (ms : Nat)
  | configure (node : Nat)
  | openRange (node base len : Nat)
  | train (port : Nat)
  deriving DecidableEq, Repr

/-- One instruction or event: one constructor per row of the opcode table. Scalar and Lantern rows carry the fields of
their word, lane rows the fields of their slot (R49), event rows what the event's agent or the outside world brings. -/
inductive Instr where
  /-- R86 SADD. -/
  | sadd (d a b : BitVec 5)
  /-- R86 SSUB. -/
  | ssub (d a b : BitVec 5)
  /-- R86 SMUL. -/
  | smul (d a b : BitVec 5)
  /-- R86 SMULH. -/
  | smulh (d a b : BitVec 5)
  /-- R86 SMULHU. -/
  | smulhu (d a b : BitVec 5)
  /-- R86 SAND. -/
  | sand (d a b : BitVec 5)
  /-- R86 SOR. -/
  | sor (d a b : BitVec 5)
  /-- R86 SXOR. -/
  | sxor (d a b : BitVec 5)
  /-- R86 SSHL. -/
  | sshl (d a b : BitVec 5)
  /-- R86 SSHR. -/
  | sshr (d a b : BitVec 5)
  /-- R86 SSRA. -/
  | ssra (d a b : BitVec 5)
  /-- R86 SSLT. -/
  | sslt (d a b : BitVec 5)
  /-- R86 SSLTU. -/
  | ssltu (d a b : BitVec 5)
  /-- R86 SMIN. -/
  | smin (d a b : BitVec 5)
  /-- R86 SMAX. -/
  | smax (d a b : BitVec 5)
  /-- R86 SCLZ. -/
  | sclz (d a : BitVec 5)
  /-- R86 SPOPC. -/
  | spopc (d a : BitVec 5)
  /-- R87 SADDI. -/
  | saddi (d a : BitVec 5) (k : BitVec 16)
  /-- R87 SANDI. -/
  | sandi (d a : BitVec 5) (k : BitVec 16)
  /-- R87 SORI. -/
  | sori (d a : BitVec 5) (k : BitVec 16)
  /-- R87 SXORI. -/
  | sxori (d a : BitVec 5) (k : BitVec 16)
  /-- R87 SSHLI. -/
  | sshli (d a : BitVec 5) (k : BitVec 6)
  /-- R87 SSHRI. -/
  | sshri (d a : BitVec 5) (k : BitVec 6)
  /-- R87 SSRAI. -/
  | ssrai (d a : BitVec 5) (k : BitVec 6)
  /-- R87 SSLTI. -/
  | sslti (d a : BitVec 5) (k : BitVec 16)
  /-- R87 SSLTIU. -/
  | ssltiu (d a : BitVec 5) (k : BitVec 16)
  /-- R87 SLUI. -/
  | slui (d : BitVec 5) (k : BitVec 16)
  /-- R156 SLD. -/
  | sld (d a : BitVec 5) (w : Width) (off : BitVec 14)
  /-- R156 SST. -/
  | sst (d a : BitVec 5) (w : Width) (off : BitVec 14)
  /-- R157 SAMO. -/
  | samo (d a b : BitVec 5) (op : Aop) (w : Width) (o : Ord) (sc : Scope)
  /-- R157 SAMO_LOAD. -/
  | samoLoad (d a : BitVec 5) (w : Width) (o : Ord) (sc : Scope)
  /-- R157 SAMO_STORE. -/
  | samoStore (a b : BitVec 5) (w : Width) (o : Ord) (sc : Scope)
  /-- R157 SCAS. -/
  | scas (d a b : BitVec 5) (w : Width) (o : Ord) (sc : Scope)
  /-- R88 SB. -/
  | sb (c : Cond) (a b : BitVec 5) (off : BitVec 13)
  /-- R88 SJAL. -/
  | sjal (d : BitVec 5) (off : BitVec 21)
  /-- R88 SJR. -/
  | sjr (d a : BitVec 5) (k : BitVec 16)
  /-- R89 LRUN. -/
  | lrun (a : BitVec 5) (k : BitVec 16)
  /-- R89 LWAIT. -/
  | lwait
  /-- R89 UPUSH. -/
  | upush (a : BitVec 5)
  /-- R89 SGETW. -/
  | sgetw (d : BitVec 5) (k : BitVec 4)
  /-- R177 RGIVE. -/
  | rgive (n : BitVec 11)
  /-- R177 RCLAIM. -/
  | rclaim (n : BitVec 11)
  /-- R346 SEAL. -/
  | seal (d a b : BitVec 5)
  /-- R242 MCOMMIT. -/
  | mcommit
  /-- R90 SYSR. -/
  | sysr (d : BitVec 5) (r : SysReg)
  /-- R90 SYSW. -/
  | sysw (r : SysReg) (a : BitVec 5)
  /-- R94 TRAP. -/
  | trap (k : BitVec 11)
  /-- R220 ERET. -/
  | eret
  /-- R28 SFENCE. -/
  | sfence (k : FenceKind) (sc : Scope)
  /-- R254 TENQ. -/
  | tenq (a b : BitVec 5)
  /-- R261 TFORK. -/
  | tfork (d a : BitVec 5)
  /-- R262 TJOIN. -/
  | tjoin (a b : BitVec 5)
  /-- R257 TRIGGER. -/
  | trigger
  /-- R257 TEXIT. -/
  | texit
  /-- R257 TYIELD. -/
  | tyield
  /-- R183 BAR. -/
  | bar (k : BitVec 4)
  /-- R185 BOINIT. -/
  | boinit (a b : BitVec 5) (k : BitVec 11)
  /-- R185 BOARRIVE. -/
  | boarrive (a : BitVec 5)
  /-- R185 BOEXPECT. -/
  | boexpect (a b : BitVec 5) (k : BitVec 11)
  /-- R185 BOWAIT. -/
  | bowait (a : BitVec 5) (ph : Bool)
  /-- R185 BOTEST. -/
  | botest (d a : BitVec 5)
  /-- R163 WATCH. -/
  | watch (a : BitVec 5)
  /-- R165 WAITW. -/
  | waitw (d a : BitVec 5) (nt : Bool)
  /-- R100 IADD. -/
  | iadd (x : LaneOp)
  /-- R100 ISUB. -/
  | isub (x : LaneOp)
  /-- R100 IMUL. -/
  | imul (x : LaneOp)
  /-- R100 IMULH. -/
  | imulh (x : LaneOp)
  /-- R100 IMULHU. -/
  | imulhu (x : LaneOp)
  /-- R100 IMAD. -/
  | imad (x : LaneOp)
  /-- R100 IMIN. -/
  | imin (x : LaneOp)
  /-- R100 IMAX. -/
  | imax (x : LaneOp)
  /-- R100 IMINU. -/
  | iminu (x : LaneOp)
  /-- R100 IMAXU. -/
  | imaxu (x : LaneOp)
  /-- R100 IABS. -/
  | iabs (x : LaneOp)
  /-- R101 ILOP. -/
  | ilop (x : LaneOp)
  /-- R100 ISHL. -/
  | ishl (x : LaneOp)
  /-- R100 ISHR. -/
  | ishr (x : LaneOp)
  /-- R100 ISRA. -/
  | isra (x : LaneOp)
  /-- R102 IFSH. -/
  | ifsh (x : LaneOp)
  /-- R103 ICMP. -/
  | icmp (x : LaneOp)
  /-- R104 ISEL. -/
  | isel (x : LaneOp)
  /-- R100 POPC. -/
  | popc (x : LaneOp)
  /-- R100 CLZ. -/
  | clz (x : LaneOp)
  /-- R100 BREV. -/
  | brev (x : LaneOp)
  /-- R105 BFX. -/
  | bfx (x : LaneOp)
  /-- R105 BFI. -/
  | bfi (x : LaneOp)
  /-- R106 BPERM. -/
  | bperm (x : LaneOp)
  /-- R100 IMOV. -/
  | imov (x : LaneOp)
  /-- R107 IMOVX. -/
  | imovx (x : LaneOp)
  /-- R108 IADDS. -/
  | iadds (x : LaneOp)
  /-- R109 FADD. -/
  | fadd (x : LaneOp)
  /-- R109 FSUB. -/
  | fsub (x : LaneOp)
  /-- R109 FMUL. -/
  | fmul (x : LaneOp)
  /-- R109 FFMA. -/
  | ffma (x : LaneOp)
  /-- R110 FMIN. -/
  | fmin (x : LaneOp)
  /-- R110 FMAX. -/
  | fmax (x : LaneOp)
  /-- R111 FCMP. -/
  | fcmp (x : LaneOp)
  /-- R112 FCLASS. -/
  | fclass (x : LaneOp)
  /-- R113 HADD2. -/
  | hadd2 (x : LaneOp)
  /-- R113 HMUL2. -/
  | hmul2 (x : LaneOp)
  /-- R113 HFMA2. -/
  | hfma2 (x : LaneOp)
  /-- R115 CVT. -/
  | cvt (x : LaneOp)
  /-- R118 CVTS. -/
  | cvts (x : LaneOp)
  /-- R116 PACK. -/
  | pack (x : LaneOp)
  /-- R117 UNPK. -/
  | unpk (x : LaneOp)
  /-- R119 IDP4. -/
  | idp4 (x : LaneOp)
  /-- R119 IDP8. -/
  | idp8 (x : LaneOp)
  /-- R120 FDP8. -/
  | fdp8 (x : LaneOp)
  /-- R120 FDP4. -/
  | fdp4 (x : LaneOp)
  /-- R121 FRCP. -/
  | frcp (x : LaneOp)
  /-- R121 FRSQ. -/
  | frsq (x : LaneOp)
  /-- R121 FSQRT. -/
  | fsqrt (x : LaneOp)
  /-- R121 FEXP2. -/
  | fexp2 (x : LaneOp)
  /-- R121 FLOG2. -/
  | flog2 (x : LaneOp)
  /-- R121 FSIN. -/
  | fsin (x : LaneOp)
  /-- R121 FCOS. -/
  | fcos (x : LaneOp)
  /-- R121 FTANH. -/
  | ftanh (x : LaneOp)
  /-- R122 LCLOCK. -/
  | lclock (x : LaneOp)
  /-- R138 SHFL. -/
  | shfl (x : LaneOp)
  /-- R139 VOTE. -/
  | vote (x : LaneOp)
  /-- R140 REDUX. -/
  | redux (x : LaneOp)
  /-- R141 SCAN. -/
  | scan (x : LaneOp)
  /-- R142 MATCH. -/
  | match (x : LaneOp)
  /-- R135 LPART. -/
  | lpart (x : LaneOp)
  /-- R143 LELECT. -/
  | lelect (x : LaneOp)
  /-- R144 LRAND. -/
  | lrand (x : LaneOp)
  /-- R128 LBR. -/
  | lbr (x : LaneOp)
  /-- R130 LJMP. -/
  | ljmp (x : LaneOp)
  /-- R130 LJOIN. -/
  | ljoin (x : LaneOp)
  /-- R129 LBRK. -/
  | lbrk (x : LaneOp)
  /-- R130 LEND. -/
  | lend (x : LaneOp)
  /-- R130 LKILL. -/
  | lkill (x : LaneOp)
  /-- R130 LNOP. -/
  | lnop (x : LaneOp)
  /-- R149 LD. -/
  | ld (x : LaneOp)
  /-- R149 ST. -/
  | st (x : LaneOp)
  /-- R151 ATOM. -/
  | atom (x : LaneOp)
  /-- R152 ACAS. -/
  | acas (x : LaneOp)
  /-- R153 PREF. -/
  | pref (x : LaneOp)
  /-- R154 CVTA. -/
  | cvta (x : LaneOp)
  /-- R154 ISAP. -/
  | isap (x : LaneOp)
  /-- R155 FENCE. -/
  | fence (x : LaneOp)
  /-- R195 SECOPY. -/
  | secopy (x : LaneOp)
  /-- R195 SEGATH. -/
  | segath (x : LaneOp)
  /-- R196 SEFENCE. -/
  | sefence (x : LaneOp)
  /-- R203 MLDS. -/
  | mlds (x : LaneOp)
  /-- R204 MFLIP. -/
  | mflip (x : LaneOp)
  /-- R205 MSTR. -/
  | mstr (x : LaneOp)
  /-- R206 MDRAIN. -/
  | mdrain (x : LaneOp)
  /-- R207 MZERO. -/
  | mzero (x : LaneOp)
  /-- R208 MFUSE. -/
  | mfuse (x : LaneOp)
  /-- R207 MWAIT. -/
  | mwait (x : LaneOp)
  /-- R293 LMARK. -/
  | lmark (x : LaneOp)
  /-- R288 GLDE. -/
  | glde (d : BitVec 3) (f : BitVec 6)
  /-- R288 GLDC. -/
  | gldc (d : BitVec 3) (k : BitVec 24)
  /-- R288 GADD. -/
  | gadd (d a b : BitVec 3)
  /-- R288 GADD_IMM. -/
  | gaddImm (d a : BitVec 3) (k : BitVec 20)
  /-- R288 GSUB. -/
  | gsub (d a b : BitVec 3)
  /-- R288 GSUB_IMM. -/
  | gsubImm (d a : BitVec 3) (k : BitVec 20)
  /-- R288 GAND. -/
  | gand (d a b : BitVec 3)
  /-- R288 GAND_IMM. -/
  | gandImm (d a : BitVec 3) (k : BitVec 20)
  /-- R288 GOR. -/
  | gor (d a b : BitVec 3)
  /-- R288 GOR_IMM. -/
  | gorImm (d a : BitVec 3) (k : BitVec 20)
  /-- R288 GSHL. -/
  | gshl (d a b : BitVec 3)
  /-- R288 GSHL_IMM. -/
  | gshlImm (d a : BitVec 3) (k : BitVec 20)
  /-- R288 GSHR. -/
  | gshr (d a b : BitVec 3)
  /-- R288 GSHR_IMM. -/
  | gshrImm (d a : BitVec 3) (k : BitVec 20)
  /-- R288 GMIN. -/
  | gmin (d a b : BitVec 3)
  /-- R288 GMIN_IMM. -/
  | gminImm (d a : BitVec 3) (k : BitVec 20)
  /-- R288 GMAX. -/
  | gmax (d a b : BitVec 3)
  /-- R288 GMAX_IMM. -/
  | gmaxImm (d a : BitVec 3) (k : BitVec 20)
  /-- R288 GSKIP. -/
  | gskip (c : Cond) (a b : BitVec 3) (n : BitVec 6)
  /-- R289 GHIST. -/
  | ghist (a b : BitVec 3) (o : BitVec 12)
  /-- R289 GSKETCH. -/
  | gsketch (a b : BitVec 3) (o : BitVec 12)
  /-- R288 GCOUNT. -/
  | gcount (a : BitVec 3) (o : BitVec 12)
  /-- R288 GSAMPLE. -/
  | gsample (a b : BitVec 3) (o : BitVec 12)
  /-- R290 GTRIG. -/
  | gtrig (a b : BitVec 3) (o : BitVec 12)
  /-- R288 GEND. -/
  | gend
  /-- R82 REGION_START. -/
  | regionStart (blk beam : Nat)
  /-- R146 FRAGMENT_FIRST_ISSUE. -/
  | fragmentFirstIssue (blk beam rec : Nat)
  /-- R132 FRAGMENT_RECORD_CLEAR. -/
  | fragmentRecordClear (blk beam rec : Nat)
  /-- R160 FAULT_REPLAY. -/
  | faultReplay (blk beam : Nat)
  /-- R166 WAITW_WAKE. -/
  | waitwWake (blk beam : Nat)
  /-- R165 WAITW_TIMEOUT. -/
  | waitwTimeout (blk beam : Nat)
  /-- R168 WATCH_OVERFLOW_RECHECK. -/
  | watchOverflowRecheck (core : Nat)
  /-- R360 WATCHDOG_EXPIRY. -/
  | watchdogExpiry (blk beam : Nat)
  /-- R178 CLAIM_GRANT. -/
  | claimGrant (blk : Nat)
  /-- R183 BAR_COMPLETE. -/
  | barComplete (blk k : Nat)
  /-- R185 BO_UPDATE_PERFORM. -/
  | boUpdatePerform (core : Nat)
  /-- R187 BOWAIT_WAKE. -/
  | bowaitWake (blk beam : Nat)
  /-- R195 SE_ENTRY_START. -/
  | seEntryStart (core q : Nat)
  /-- R199 SE_FAULT_RESUME. -/
  | seFaultResume (core q : Nat)
  /-- R197 ENTRY_COMPLETION. -/
  | entryCompletion (core q : Nat)
  /-- R196 SEFENCE_ARRIVE. -/
  | sefenceArrive (core q : Nat)
  /-- R203 MLDS_COMPLETE. -/
  | mldsComplete (core : Nat)
  /-- R204 MFLIP_EFFECT. -/
  | mflipEffect (core : Nat)
  /-- R205 MSTR_COMPLETE. -/
  | mstrComplete (core : Nat)
  /-- R207 MZERO_COMPLETE. -/
  | mzeroComplete (core : Nat)
  /-- R208 MFUSE_EFFECT. -/
  | mfuseEffect (core : Nat)
  /-- R207 MWAIT_WAKE. -/
  | mwaitWake (blk beam : Nat)
  /-- R211 ACC_EXCHANGE. -/
  | accExchange (core ctx : Nat)
  /-- R217 HANDLER_START. -/
  | handlerStart (blk : Nat)
  /-- R219 BLOCK_TERMINATE. -/
  | blockTerminate (blk : Nat)
  /-- R174 BLOCK_PLACEMENT. -/
  | blockPlacement (task core : Nat)
  /-- R41 BLOCK_RETIRE. -/
  | blockRetire (blk : Nat)
  /-- R222 BOUNDARY_SAVE. -/
  | boundarySave (ctx : Nat)
  /-- R224 SHUTTER. -/
  | shutter (ctx : Nat)
  /-- R223 EVICT. -/
  | evict (ctx : Nat)
  /-- R225 CONTEXT_RESTORE. -/
  | contextRestore (ctx cluster : Nat)
  /-- R320 CALENDAR_SLOT_BOUNDARY. -/
  | calendarSlotBoundary (core : Nat)
  /-- R227 IN_FIELD_TEST. -/
  | inFieldTest (cluster : Nat)
  /-- R227 TEST_DEFERRED. -/
  | testDeferred (cluster : Nat)
  /-- R245 MIRROR_TRAP_TIMEOUT. -/
  | mirrorTrapTimeout (blk : Nat)
  /-- R256 DEFERRED_CREDIT. -/
  | deferredCredit (die : Nat)
  /-- R263 TASK_END. -/
  | taskEnd (task : Nat)
  /-- R261 REV_STORE_TIMEOUT. -/
  | revStoreTimeout (blk beam : Nat)
  /-- R274 DIRTY_LOG_SPACE. -/
  | dirtyLogSpace (tenant : Nat)
  /-- R277 SCRUB. -/
  | scrub (die : Nat) (passed : Bool)
  /-- R278 CLEAN_POOL_GRANT. -/
  | cleanPoolGrant (die : Nat)
  /-- R280 SOFT_REPAIR_END. -/
  | softRepairEnd (die : Nat)
  /-- R291 FILTER_RUN. -/
  | filterRun (die : Nat)
  /-- R291 LANTERN_WINDOW. -/
  | lanternWindow (die : Nat)
  /-- R292 LANTERN_EXPORT. -/
  | lanternExport (die filter : Nat)
  /-- R300 SWEEP. -/
  | sweep
  /-- R308 RECONCILE_PASS. -/
  | reconcilePass
  /-- R337 PROGRAM_LOAD_RESUME. -/
  | programLoadResume (id : Nat)
  /-- R328 TENANT_STOP. -/
  | tenantStop (id : Nat)
  /-- R358 PEER_RECOVERING. -/
  | peerRecovering (node : Nat)
  /-- R358 PEER_LOST. -/
  | peerLost (node : Nat)
  /-- R227 IN_FIELD_TEST_END. -/
  | inFieldTestEnd (cluster : Nat) (passed : Bool)
  /-- R214 QUADRANT_ENTRY_START. -/
  | quadrantEntryStart (core : Nat)
  /-- R271 SHOOTDOWN. -/
  | shootdown (id : Nat)
  /-- R280 SOFT_REPAIR. -/
  | softRepair (row : RowId)
  /-- R306 RECORD_READ_RETRY. -/
  | recordReadRetry (area slot : Nat)
  /-- R355 FABRIC_READ. -/
  | fabricRead (m : FMsg)
  /-- R355 FABRIC_WRITE. -/
  | fabricWrite (m : FMsg)
  /-- R355 FABRIC_ATOMIC. -/
  | fabricAtomic (m : FMsg)
  /-- R351 FABRIC_DATA. -/
  | fabricData (m : FMsg)
  /-- R356 FABRIC_ACK. -/
  | fabricAck (m : FMsg)
  /-- R351 FABRIC_ERR. -/
  | fabricErr (m : FMsg)
  /-- R357 FABRIC_WATCH. -/
  | fabricWatch (m : FMsg)
  /-- R357 FABRIC_HIT. -/
  | fabricHit (m : FMsg)
  /-- R357 FABRIC_UNWATCH. -/
  | fabricUnwatch (m : FMsg)
  /-- R358 HEARTBEAT. -/
  | heartbeat (m : FMsg)
  /-- R361 UNKNOWN_OP_MESSAGE. -/
  | unknownOpMessage (m : FMsg)
  /-- R358 HEARTBEAT_SEND. -/
  | heartbeatSend
  /-- R222 KNOCK. -/
  | knock (ctx : Nat) (cause : StopCause)
  /-- R226 DEBUG_BREAK. -/
  | debugBreak (blk req : Nat) (freeze : Bool)
  /-- R226 DEBUG_STEP. -/
  | debugStep (blk beam req : Nat) (lane : Bool)
  /-- R226 DEBUG_RESUME. -/
  | debugResume (blk : Nat)
  /-- R268 TABLE_REBUILD. -/
  | tableRebuild (tenant die : Nat)
  /-- R276 PATROL. -/
  | patrol (die line : Nat) (found : EccFinding)
  /-- R283 LANTERN_EVENT. -/
  | lanternEvent (die : Nat) (e : LEvent) (tick : Bool)
  /-- R295 LANTERN_SRAM_ERROR. -/
  | lanternSramError (die filter : Nat)
  /-- R330 PACKAGE_RESET. -/
  | packageReset
  /-- R298 DSRROOT_WRITE. -/
  | dsrrootWrite (addr : BitVec 64)
  /-- R298 HOST_SNOOP. -/
  | hostSnoop (addr : Nat)
  /-- R331 THROTTLE. -/
  | throttle (core step : Nat)
  /-- R331 CRITICAL_TRIP. -/
  | criticalTrip (core : Nat)
  /-- R329 GET_VERSION. -/
  | getVersion (req : List Byte)
  /-- R329 GET_CAPABILITIES. -/
  | getCapabilities (req : List Byte)
  /-- R329 NEGOTIATE_ALGORITHMS. -/
  | negotiateAlgorithms (req : List Byte)
  /-- R329 GET_DIGESTS. -/
  | getDigests (req : List Byte)
  /-- R329 GET_CERTIFICATE. -/
  | getCertificate (req : List Byte)
  /-- R329 CHALLENGE. -/
  | challenge (req : List Byte)
  /-- R329 GET_MEASUREMENTS. -/
  | getMeasurements (req : List Byte)
  /-- R354 FABRIC_MANAGEMENT. -/
  | fabricManagement (c : FMgmt)
  /-- R353 LINK_REPLAY. -/
  | linkReplay (port : Nat) (f : Flit)
  /-- R353 LINK_RETRAIN. -/
  | linkRetrain (port : Nat) (f : Flit)
  /-- R352 XOFF. -/
  | xoff (port : Nat) (bits : BitVec 4)
  /-- R361 PORT_DOWN. -/
  | portDown (port : Nat)
  /-- R298 HOST_CXL_MEM_ACCESS. -/
  | hostCxlMemAccess (addr : Nat) (store : Bool) (data : List Byte)
  /-- R166 CXL_CACHE_SNOOP. -/
  | cxlCacheSnoop (addr : Nat) (data : List Byte)
  deriving DecidableEq, Repr

end Sys2Proof
end

