-- ==== Sys2Proof/Machine/Fields.lean ====
section
/-! DEFINITION. The codes of the fields of a word (R43 to R55, R363) and, for every lane operation, what each of its
fields is: the roles of d, a, b and c, the legal modifiers, the class and whether it is long-form only (R54). -/

namespace Sys2Proof

/-- `n` bits of the number `w` from bit `lo` up. -/
def bits (w lo n : Nat) : BitVec n := BitVec.ofNat n (w / 2 ^ lo)

def Width.code : Width → Nat
  | .w8 => 0 | .w16 => 1 | .w32 => 2 | .w64 => 3
def Width.ofCode : Nat → Option Width
  | 0 => some .w8 | 1 => some .w16 | 2 => some .w32 | 3 => some .w64 | _ => none
/-- Bytes of an access of this width. -/
def Width.bytes : Width → Nat
  | .w8 => 1 | .w16 => 2 | .w32 => 4 | .w64 => 8

def Ord.code : Ord → Nat
  | .rlx => 0 | .acq => 1 | .rel => 2 | .ar => 3 | .sc => 4
def Ord.ofCode : Nat → Option Ord
  | 0 => some .rlx | 1 => some .acq | 2 => some .rel | 3 => some .ar | 4 => some .sc | _ => none

def Scope.code : Scope → Nat
  | .lane => 0 | .beam => 1 | .block => 2 | .cluster => 3 | .die => 4 | .pkg => 5 | .sys => 6
def Scope.ofCode : Nat → Option Scope
  | 0 => some .lane | 1 => some .beam | 2 => some .block | 3 => some .cluster
  | 4 => some .die | 5 => some .pkg | 6 => some .sys | _ => none

def FenceKind.code : FenceKind → Nat
  | .acq => 0 | .rel => 1 | .ar => 2 | .sc => 3
def FenceKind.ofCode : Nat → Option FenceKind
  | 0 => some .acq | 1 => some .rel | 2 => some .ar | 3 => some .sc | _ => none

def Aop.code : Aop → Nat
  | .add => 0 | .and => 1 | .or => 2 | .xor => 3 | .min => 4 | .max => 5 | .minu => 6 | .maxu => 7 | .swap => 8
def Aop.ofCode : Nat → Option Aop
  | 0 => some .add | 1 => some .and | 2 => some .or | 3 => some .xor | 4 => some .min | 5 => some .max
  | 6 => some .minu | 7 => some .maxu | 8 => some .swap | _ => none

def Cond.code : Cond → Nat
  | .eq => 0 | .ne => 1 | .lt => 2 | .ge => 3 | .ltu => 4 | .geu => 5
def Cond.ofCode : Nat → Option Cond
  | 0 => some .eq | 1 => some .ne | 2 => some .lt | 3 => some .ge | 4 => some .ltu | 5 => some .geu | _ => none

/-- R23: the orderings an atomic load may carry. -/
def Ord.okLoad (o : Ord) : Bool := o == .rlx || o == .acq || o == .sc
/-- R23: the orderings an atomic store may carry. -/
def Ord.okStore (o : Ord) : Bool := o == .rlx || o == .rel || o == .sc

/-- R363: the number of each system register. -/
def SysReg.num : SysReg → Nat
  | .fmode => 0x000
  | .seed => 0x001
  | .ctr => 0x002
  | .dead => 0x003
  | .sor => 0x004
  | .retired => 0x005
  | .lanemap => 0x006
  | .passes => 0x007
  | .place => 0x008
  | .beamcfg => 0x009
  | .litpc => 0x00a
  | .litst => 0x00b
  | .shadepc => 0x00c
  | .shadest => 0x00d
  | .fragn => 0x00e
  | .strm => 0x00f
  | .cycles => 0x010
  | .reftime => 0x011
  | .trapvec => 0x020
  | .tcg => 0x021
  | .tdr0 => 0x022
  | .tdr1 => 0x023
  | .tdr2 => 0x024
  | .tpc => 0x025
  | .tlpc => 0x026
  | .skid => 0x027
  | .preq => 0x028
  | .poolpart => 0x040
  | .reserve => 0x041
  | .corepass => 0x042
  | .accown => 0x043
  | .acclive0 => 0x044
  | .acclive1 => 0x045
  | .acclive2 => 0x046
  | .acclive3 => 0x047
  | .prog => 0x048
  | .mstat => 0x049
  | .mirst => 0x04a
  | .taskst => 0x04b
  | .diemem => 0x04c
  | .caplist => 0x04d
  | .tstamp0 => 0x04e
  | .tstamp1 => 0x04f
  | .fabnode => 0x050
  | .peerst0 => 0x051
  | .peerst1 => 0x052

/-- R363: every number not listed names no register. -/
def SysReg.ofNum : Nat → Option SysReg
  | 0x000 => some .fmode
  | 0x001 => some .seed
  | 0x002 => some .ctr
  | 0x003 => some .dead
  | 0x004 => some .sor
  | 0x005 => some .retired
  | 0x006 => some .lanemap
  | 0x007 => some .passes
  | 0x008 => some .place
  | 0x009 => some .beamcfg
  | 0x00a => some .litpc
  | 0x00b => some .litst
  | 0x00c => some .shadepc
  | 0x00d => some .shadest
  | 0x00e => some .fragn
  | 0x00f => some .strm
  | 0x010 => some .cycles
  | 0x011 => some .reftime
  | 0x020 => some .trapvec
  | 0x021 => some .tcg
  | 0x022 => some .tdr0
  | 0x023 => some .tdr1
  | 0x024 => some .tdr2
  | 0x025 => some .tpc
  | 0x026 => some .tlpc
  | 0x027 => some .skid
  | 0x028 => some .preq
  | 0x040 => some .poolpart
  | 0x041 => some .reserve
  | 0x042 => some .corepass
  | 0x043 => some .accown
  | 0x044 => some .acclive0
  | 0x045 => some .acclive1
  | 0x046 => some .acclive2
  | 0x047 => some .acclive3
  | 0x048 => some .prog
  | 0x049 => some .mstat
  | 0x04a => some .mirst
  | 0x04b => some .taskst
  | 0x04c => some .diemem
  | 0x04d => some .caplist
  | 0x04e => some .tstamp0
  | 0x04f => some .tstamp1
  | 0x050 => some .fabnode
  | 0x051 => some .peerst0
  | 0x052 => some .peerst1
  | _ => none

/-- R54: the classes of R52. -/
inductive LaneClass where
  | int | fp | cvt | sfu | cross | ctl | mem | engine | matrix | misc
  deriving DecidableEq, Repr

/-- What a field of a lane operation is (R51, R54 and the operation's own section). -/
inductive Role where
  /-- must be zero (R49) -/
  | unused
  | src
  | dstV | dstP | dstW
  /-- destination that a short slot also reads as its third source (R49) -/
  | dstThird
  /-- a source pair of registers when the width is 64 bits (R149, R151) -/
  | srcPair
  /-- a destination pair when the width is 64 bits -/
  | dstPair
  /-- ACAS: expected value and destination (R152) -/
  | dstCas
  /-- base address (R147) -/
  | base
  /-- ordering annotation (R148) -/
  | annot
  /-- predicate of LBR and LBRK (R127) -/
  | pred
  /-- base register number of IMOVX (R107) -/
  | vbase
  /-- tile selector of REDUX (R140) -/
  | sel
  /-- first of nine coordinate registers (R193) -/
  | nine
  /-- SEFENCE's object (R193) -/
  | fenceObj
  /-- scale-tile offset: zero unless `.sc` (R202) -/
  | scale
  deriving DecidableEq, Repr

/-- One row of the lane map (R54). -/
structure LaneSpec where
  code : Nat
  longOnly : Bool
  cls : LaneClass
  d : Role
  a : Role
  b : Role
  c : Role
  mOk : Bool
  /-- the ordering annotation in field c is legal (R148) -/
  cOk : Bool := true
  /-- imm32 is read directly by the word (R127); `immOk` says its must-be-zero bits are zero -/
  immDirect : Bool := false
  immOk : Bool := true

namespace LaneOp
/-- Modifier bits [hi:lo] as a number. -/
def mb (x : LaneOp) (lo n : Nat) : Nat := x.m.toNat / 2 ^ lo % 2 ^ n
/-- R99: rnd codes 1 to 3 are undefined. -/
def rndOk (x : LaneOp) : Bool := x.mb 4 3 == 0 || 4 ≤ x.mb 4 3
/-- All modifier bits from `k` up are zero. -/
def below (x : LaneOp) (k : Nat) : Bool := x.m.toNat < 2 ^ k
/-- R149, R151, R152: `.s` (bit `s`) only with the 8 and 16-bit widths (bits from `w` up). -/
def signOk (x : LaneOp) (w s : Nat) : Bool := x.mb s 1 == 0 || x.mb w 2 < 2
/-- R201: a format code other than 7, and `.sc` only with formats that take scales. -/
def fmtOk (x : LaneOp) : Bool := x.mb 0 3 != 7 && (x.mb 3 1 == 0 || (2 ≤ x.mb 0 3 && x.mb 0 3 ≤ 4))
/-- R148: c is 0, or 0x100 with a defined order and scope that `ok` allows. -/
def annotOk (x : LaneOp) (ok : Ord → Bool) : Bool :=
  x.c == 0 || (x.c.toNat / 64 == 4 && (Scope.ofCode (x.c.toNat % 8)).isSome &&
    (match Ord.ofCode (x.c.toNat / 8 % 8) with | some o => ok o | none => false))
end LaneOp

/-- R54 and the sections of the operations: the row of each lane operation, `none` for the rows that are no lane word. -/
def Instr.laneSpec : Instr → Option LaneSpec
  | .iadd x => some { code := 0x000, longOnly := false, cls := .int, d := .dstV, a := .src, b := .src, c := .unused, mOk := x.m == 0 }
  | .isub x => some { code := 0x001, longOnly := false, cls := .int, d := .dstV, a := .src, b := .src, c := .unused, mOk := x.m == 0 }
  | .imul x => some { code := 0x002, longOnly := false, cls := .int, d := .dstV, a := .src, b := .src, c := .unused, mOk := x.m == 0 }
  | .imulh x => some { code := 0x003, longOnly := false, cls := .int, d := .dstV, a := .src, b := .src, c := .unused, mOk := x.m == 0 }
  | .imulhu x => some { code := 0x004, longOnly := false, cls := .int, d := .dstV, a := .src, b := .src, c := .unused, mOk := x.m == 0 }
  | .imad x => some { code := 0x005, longOnly := true, cls := .int, d := .dstV, a := .src, b := .src, c := .src, mOk := x.m == 0 }
  | .imin x => some { code := 0x006, longOnly := false, cls := .int, d := .dstV, a := .src, b := .src, c := .unused, mOk := x.m == 0 }
  | .imax x => some { code := 0x007, longOnly := false, cls := .int, d := .dstV, a := .src, b := .src, c := .unused, mOk := x.m == 0 }
  | .iminu x => some { code := 0x008, longOnly := false, cls := .int, d := .dstV, a := .src, b := .src, c := .unused, mOk := x.m == 0 }
  | .imaxu x => some { code := 0x009, longOnly := false, cls := .int, d := .dstV, a := .src, b := .src, c := .unused, mOk := x.m == 0 }
  | .iabs x => some { code := 0x00a, longOnly := false, cls := .int, d := .dstV, a := .src, b := .unused, c := .unused, mOk := x.below 1 }
  | .ilop x => some { code := 0x00b, longOnly := false, cls := .int, d := .dstThird, a := .src, b := .src, c := (if x.long then .src else .unused), mOk := x.below 8 }
  | .ishl x => some { code := 0x00c, longOnly := false, cls := .int, d := .dstV, a := .src, b := .src, c := .unused, mOk := x.m == 0 }
  | .ishr x => some { code := 0x00d, longOnly := false, cls := .int, d := .dstV, a := .src, b := .src, c := .unused, mOk := x.m == 0 }
  | .isra x => some { code := 0x00e, longOnly := false, cls := .int, d := .dstV, a := .src, b := .src, c := .unused, mOk := x.m == 0 }
  | .ifsh x => some { code := 0x00f, longOnly := false, cls := .int, d := .dstThird, a := .src, b := .src, c := (if x.long then .src else .unused), mOk := x.below 1 }
  | .icmp x => some { code := 0x010, longOnly := false, cls := .int, d := .dstP, a := .src, b := .src, c := .unused, mOk := decide (x.m.toNat ≤ 9) }
  | .isel x => some { code := 0x011, longOnly := false, cls := .int, d := .dstThird, a := .src, b := .src, c := (if x.long then .src else .unused), mOk := x.m == 0 }
  | .popc x => some { code := 0x012, longOnly := false, cls := .int, d := .dstV, a := .src, b := .unused, c := .unused, mOk := x.m == 0 }
  | .clz x => some { code := 0x013, longOnly := false, cls := .int, d := .dstV, a := .src, b := .unused, c := .unused, mOk := x.m == 0 }
  | .brev x => some { code := 0x014, longOnly := false, cls := .int, d := .dstV, a := .src, b := .unused, c := .unused, mOk := x.m == 0 }
  | .bfx x => some { code := 0x015, longOnly := false, cls := .int, d := .dstV, a := .src, b := .src, c := .unused, mOk := x.below 1 }
  | .bfi x => some { code := 0x016, longOnly := false, cls := .int, d := .dstThird, a := .src, b := .src, c := (if x.long then .src else .unused), mOk := x.m == 0 }
  | .bperm x => some { code := 0x017, longOnly := false, cls := .int, d := .dstV, a := .src, b := .src, c := .unused, mOk := x.m == 0 }
  | .imov x => some { code := 0x018, longOnly := false, cls := .int, d := .dstV, a := .src, b := .unused, c := .unused, mOk := x.m == 0 }
  | .imovx x => some { code := 0x019, longOnly := false, cls := .int, d := (if x.mb 0 1 == 0 then .dstV else .vbase), a := (if x.mb 0 1 == 0 then .vbase else .src), b := .src, c := .unused, mOk := x.below 1 }
  | .iadds x => some { code := 0x01a, longOnly := false, cls := .int, d := .dstV, a := .src, b := .src, c := .unused, mOk := x.below 1 }
  | .fadd x => some { code := 0x080, longOnly := false, cls := .fp, d := .dstV, a := .src, b := .src, c := .unused, mOk := x.below 7 && x.rndOk }
  | .fsub x => some { code := 0x081, longOnly := false, cls := .fp, d := .dstV, a := .src, b := .src, c := .unused, mOk := x.below 7 && x.rndOk }
  | .fmul x => some { code := 0x082, longOnly := false, cls := .fp, d := .dstV, a := .src, b := .src, c := .unused, mOk := x.below 7 && x.rndOk }
  | .ffma x => some { code := 0x083, longOnly := true, cls := .fp, d := .dstV, a := .src, b := .src, c := .src, mOk := x.below 9 && x.rndOk }
  | .fmin x => some { code := 0x084, longOnly := false, cls := .fp, d := .dstV, a := .src, b := .src, c := .unused, mOk := x.below 4 }
  | .fmax x => some { code := 0x085, longOnly := false, cls := .fp, d := .dstV, a := .src, b := .src, c := .unused, mOk := x.below 4 }
  | .fcmp x => some { code := 0x086, longOnly := false, cls := .fp, d := .dstP, a := .src, b := .src, c := .unused, mOk := x.below 7 }
  | .fclass x => some { code := 0x087, longOnly := false, cls := .fp, d := .dstV, a := .src, b := .unused, c := .unused, mOk := x.below 2 }
  | .hadd2 x => some { code := 0x088, longOnly := false, cls := .fp, d := .dstV, a := .src, b := .src, c := .unused, mOk := x.below 7 && x.rndOk && x.mb 2 1 == 0 }
  | .hmul2 x => some { code := 0x089, longOnly := false, cls := .fp, d := .dstV, a := .src, b := .src, c := .unused, mOk := x.below 7 && x.rndOk && x.mb 2 1 == 0 }
  | .hfma2 x => some { code := 0x08a, longOnly := true, cls := .fp, d := .dstV, a := .src, b := .src, c := .src, mOk := x.below 7 && x.rndOk }
  | .cvt x => some { code := 0x100, longOnly := false, cls := .cvt, d := .dstV, a := .src, b := .src, c := .unused, mOk := x.mb 3 1 == 0 && x.rndOk }
  | .cvts x => some { code := 0x101, longOnly := false, cls := .cvt, d := .dstV, a := .src, b := .unused, c := .unused, mOk := x.mb 0 2 != 3 && x.mb 2 2 == 0 && x.below 7 && x.rndOk }
  | .pack x => some { code := 0x102, longOnly := false, cls := .cvt, d := .dstV, a := .src, b := .src, c := .unused, mOk := x.mb 0 2 != 3 && x.mb 2 2 != 3 && x.below 4 }
  | .unpk x => some { code := 0x103, longOnly := false, cls := .cvt, d := .dstV, a := .src, b := .src, c := .unused, mOk := x.mb 0 2 != 3 && x.below 3 }
  | .idp4 x => some { code := 0x104, longOnly := true, cls := .cvt, d := .dstV, a := .src, b := .src, c := .src, mOk := x.m == 0 }
  | .idp8 x => some { code := 0x105, longOnly := true, cls := .cvt, d := .dstV, a := .src, b := .src, c := .src, mOk := x.m == 0 }
  | .fdp8 x => some { code := 0x106, longOnly := true, cls := .cvt, d := .dstV, a := .src, b := .src, c := .src, mOk := x.mb 2 2 == 0 && x.below 7 && x.rndOk }
  | .fdp4 x => some { code := 0x107, longOnly := true, cls := .cvt, d := .dstV, a := .src, b := .src, c := .src, mOk := x.mb 0 4 == 0 && x.below 7 && x.rndOk }
  | .frcp x => some { code := 0x140, longOnly := false, cls := .sfu, d := .dstV, a := .src, b := .unused, c := .unused, mOk := x.mb 2 2 == 0 && x.below 7 && x.rndOk }
  | .frsq x => some { code := 0x141, longOnly := false, cls := .sfu, d := .dstV, a := .src, b := .unused, c := .unused, mOk := x.mb 2 2 == 0 && x.below 7 && x.rndOk }
  | .fsqrt x => some { code := 0x142, longOnly := false, cls := .sfu, d := .dstV, a := .src, b := .unused, c := .unused, mOk := x.mb 2 2 == 0 && x.below 7 && x.rndOk }
  | .fexp2 x => some { code := 0x143, longOnly := false, cls := .sfu, d := .dstV, a := .src, b := .unused, c := .unused, mOk := x.mb 2 2 == 0 && x.below 7 && x.rndOk }
  | .flog2 x => some { code := 0x144, longOnly := false, cls := .sfu, d := .dstV, a := .src, b := .unused, c := .unused, mOk := x.mb 2 2 == 0 && x.below 7 && x.rndOk }
  | .fsin x => some { code := 0x145, longOnly := false, cls := .sfu, d := .dstV, a := .src, b := .unused, c := .unused, mOk := x.mb 2 2 == 0 && x.below 7 && x.rndOk }
  | .fcos x => some { code := 0x146, longOnly := false, cls := .sfu, d := .dstV, a := .src, b := .unused, c := .unused, mOk := x.mb 2 2 == 0 && x.below 7 && x.rndOk }
  | .ftanh x => some { code := 0x147, longOnly := false, cls := .sfu, d := .dstV, a := .src, b := .unused, c := .unused, mOk := x.mb 2 2 == 0 && x.below 7 && x.rndOk }
  | .shfl x => some { code := 0x180, longOnly := false, cls := .cross, d := .dstV, a := .src, b := .src, c := .unused, mOk := x.below 2 }
  | .vote x => some { code := 0x181, longOnly := false, cls := .cross, d := (if x.mb 0 2 == 3 then .dstW else .dstP), a := .src, b := .unused, c := .unused, mOk := x.below 2 }
  | .redux x => some { code := 0x182, longOnly := false, cls := .cross, d := .dstW, a := .src, b := .sel, c := .unused, mOk := decide (x.m.toNat ≤ 10) }
  | .scan x => some { code := 0x183, longOnly := false, cls := .cross, d := .dstV, a := .src, b := .unused, c := .unused, mOk := x.below 5 && decide (x.mb 0 4 ≤ 10) }
  | .match x => some { code := 0x184, longOnly := false, cls := .cross, d := .dstV, a := .src, b := .unused, c := .unused, mOk := x.m == 0 }
  | .lpart x => some { code := 0x185, longOnly := false, cls := .cross, d := .unused, a := .unused, b := .unused, c := .unused, mOk := decide (1 ≤ x.m.toNat ∧ x.m.toNat ≤ 5) }
  | .lelect x => some { code := 0x186, longOnly := true, cls := .cross, d := .dstP, a := .unused, b := .unused, c := .unused, mOk := x.below 1 }
  | .lbr x => some { code := 0x1c0, longOnly := true, cls := .ctl, d := .unused, a := .pred, b := .unused, c := .unused, mOk := x.below 1, immDirect := true }
  | .ljmp x => some { code := 0x1c1, longOnly := true, cls := .ctl, d := .unused, a := .unused, b := .unused, c := .unused, mOk := x.m == 0, immDirect := true, immOk := x.imm.toNat < 2 ^ 20 }
  | .ljoin x => some { code := 0x1c2, longOnly := true, cls := .ctl, d := .unused, a := .unused, b := .unused, c := .unused, mOk := x.m == 0, immDirect := true, immOk := x.imm.toNat / 2 ^ 12 % 2 ^ 8 == 0 }
  | .lbrk x => some { code := 0x1c3, longOnly := true, cls := .ctl, d := .unused, a := .pred, b := .unused, c := .unused, mOk := x.below 1, immDirect := true }
  | .lend x => some { code := 0x1c4, longOnly := false, cls := .ctl, d := .unused, a := .unused, b := .unused, c := .unused, mOk := x.m == 0 }
  | .lkill x => some { code := 0x1c5, longOnly := false, cls := .ctl, d := .unused, a := .unused, b := .unused, c := .unused, mOk := x.m == 0 }
  | .lnop x => some { code := 0x1c6, longOnly := false, cls := .ctl, d := .unused, a := .unused, b := .unused, c := .unused, mOk := x.m == 0 }
  | .ld x => some { code := 0x200, longOnly := false, cls := .mem, d := .dstPair, a := .base, b := .src, c := .annot, mOk := x.below 3 && x.signOk 0 2, cOk := x.annotOk Ord.okLoad }
  | .st x => some { code := 0x201, longOnly := false, cls := .mem, d := .srcPair, a := .base, b := .src, c := .annot, mOk := x.below 2, cOk := x.annotOk Ord.okStore }
  | .atom x => some { code := 0x202, longOnly := false, cls := .mem, d := .dstPair, a := .base, b := .srcPair, c := .annot, mOk := decide (x.mb 0 4 ≤ 8) && x.below 7 && x.signOk 4 6, cOk := x.annotOk (fun _ => true) }
  | .acas x => some { code := 0x203, longOnly := true, cls := .mem, d := .dstCas, a := .base, b := .srcPair, c := .annot, mOk := x.mb 0 4 == 0 && x.below 7 && x.signOk 4 6, cOk := x.annotOk (fun _ => true) }
  | .pref x => some { code := 0x204, longOnly := false, cls := .mem, d := .base, a := .src, b := .unused, c := .unused, mOk := decide (x.m.toNat ≤ 2) }
  | .cvta x => some { code := 0x205, longOnly := false, cls := .mem, d := (if x.mb 2 1 == 0 then .dstPair else .dstV), a := (if x.mb 2 1 == 0 then .src else .base), b := .unused, c := .unused, mOk := x.below 3 && x.mb 0 2 != 3 }
  | .isap x => some { code := 0x206, longOnly := false, cls := .mem, d := .dstP, a := .base, b := .unused, c := .unused, mOk := x.below 2 }
  | .fence x => some { code := 0x207, longOnly := false, cls := .mem, d := .unused, a := .unused, b := .unused, c := .unused, mOk := x.below 5 && x.mb 2 3 != 7 }
  | .secopy x => some { code := 0x280, longOnly := true, cls := .engine, d := .nine, a := .src, b := .src, c := .src, mOk := x.below 3 }
  | .segath x => some { code := 0x281, longOnly := true, cls := .engine, d := .nine, a := .src, b := .src, c := .src, mOk := x.below 2 }
  | .sefence x => some { code := 0x282, longOnly := true, cls := .engine, d := .fenceObj, a := .unused, b := .unused, c := .unused, mOk := x.below 5 && x.mb 0 4 != 0 }
  | .mlds x => some { code := 0x2c0, longOnly := true, cls := .matrix, d := .src, a := .src, b := .scale, c := .unused, mOk := x.below 4 && x.fmtOk }
  | .mflip x => some { code := 0x2c1, longOnly := true, cls := .matrix, d := .unused, a := .unused, b := .unused, c := .unused, mOk := x.m == 0 }
  | .mstr x => some { code := 0x2c2, longOnly := true, cls := .matrix, d := .src, a := .src, b := .scale, c := .src, mOk := x.below 5 && x.fmtOk }
  | .mdrain x => some { code := 0x2c3, longOnly := true, cls := .matrix, d := .src, a := .src, b := .src, c := .unused, mOk := x.below 4 }
  | .mzero x => some { code := 0x2c4, longOnly := true, cls := .matrix, d := .src, a := .unused, b := .unused, c := .unused, mOk := x.m == 0 }
  | .mfuse x => some { code := 0x2c5, longOnly := true, cls := .matrix, d := .src, a := .unused, b := .unused, c := .unused, mOk := x.m == 0 }
  | .mwait x => some { code := 0x2c6, longOnly := true, cls := .matrix, d := .unused, a := .unused, b := .unused, c := .unused, mOk := x.m == 0 }
  | .lrand x => some { code := 0x300, longOnly := false, cls := .misc, d := .dstV, a := .unused, b := .unused, c := .unused, mOk := x.m == 0 }
  | .lmark x => some { code := 0x301, longOnly := false, cls := .misc, d := .unused, a := .src, b := .src, c := .unused, mOk := x.below 7 }
  | .lclock x => some { code := 0x302, longOnly := false, cls := .misc, d := .dstV, a := .unused, b := .unused, c := .unused, mOk := x.below 2 }
  | _ => none

/-- The lane operation of a lane row. -/
def Instr.laneOp : Instr → Option LaneOp
  | .iadd x => some x
  | .isub x => some x
  | .imul x => some x
  | .imulh x => some x
  | .imulhu x => some x
  | .imad x => some x
  | .imin x => some x
  | .imax x => some x
  | .iminu x => some x
  | .imaxu x => some x
  | .iabs x => some x
  | .ilop x => some x
  | .ishl x => some x
  | .ishr x => some x
  | .isra x => some x
  | .ifsh x => some x
  | .icmp x => some x
  | .isel x => some x
  | .popc x => some x
  | .clz x => some x
  | .brev x => some x
  | .bfx x => some x
  | .bfi x => some x
  | .bperm x => some x
  | .imov x => some x
  | .imovx x => some x
  | .iadds x => some x
  | .fadd x => some x
  | .fsub x => some x
  | .fmul x => some x
  | .ffma x => some x
  | .fmin x => some x
  | .fmax x => some x
  | .fcmp x => some x
  | .fclass x => some x
  | .hadd2 x => some x
  | .hmul2 x => some x
  | .hfma2 x => some x
  | .cvt x => some x
  | .cvts x => some x
  | .pack x => some x
  | .unpk x => some x
  | .idp4 x => some x
  | .idp8 x => some x
  | .fdp8 x => some x
  | .fdp4 x => some x
  | .frcp x => some x
  | .frsq x => some x
  | .fsqrt x => some x
  | .fexp2 x => some x
  | .flog2 x => some x
  | .fsin x => some x
  | .fcos x => some x
  | .ftanh x => some x
  | .shfl x => some x
  | .vote x => some x
  | .redux x => some x
  | .scan x => some x
  | .match x => some x
  | .lpart x => some x
  | .lelect x => some x
  | .lbr x => some x
  | .ljmp x => some x
  | .ljoin x => some x
  | .lbrk x => some x
  | .lend x => some x
  | .lkill x => some x
  | .lnop x => some x
  | .ld x => some x
  | .st x => some x
  | .atom x => some x
  | .acas x => some x
  | .pref x => some x
  | .cvta x => some x
  | .isap x => some x
  | .fence x => some x
  | .secopy x => some x
  | .segath x => some x
  | .sefence x => some x
  | .mlds x => some x
  | .mflip x => some x
  | .mstr x => some x
  | .mdrain x => some x
  | .mzero x => some x
  | .mfuse x => some x
  | .mwait x => some x
  | .lrand x => some x
  | .lmark x => some x
  | .lclock x => some x
  | _ => none

/-- R54: the operation that op10 names. -/
def laneOfCode (op : Nat) (x : LaneOp) : Option Instr :=
  match op with
  | 0x000 => some (.iadd x)
  | 0x001 => some (.isub x)
  | 0x002 => some (.imul x)
  | 0x003 => some (.imulh x)
  | 0x004 => some (.imulhu x)
  | 0x005 => some (.imad x)
  | 0x006 => some (.imin x)
  | 0x007 => some (.imax x)
  | 0x008 => some (.iminu x)
  | 0x009 => some (.imaxu x)
  | 0x00a => some (.iabs x)
  | 0x00b => some (.ilop x)
  | 0x00c => some (.ishl x)
  | 0x00d => some (.ishr x)
  | 0x00e => some (.isra x)
  | 0x00f => some (.ifsh x)
  | 0x010 => some (.icmp x)
  | 0x011 => some (.isel x)
  | 0x012 => some (.popc x)
  | 0x013 => some (.clz x)
  | 0x014 => some (.brev x)
  | 0x015 => some (.bfx x)
  | 0x016 => some (.bfi x)
  | 0x017 => some (.bperm x)
  | 0x018 => some (.imov x)
  | 0x019 => some (.imovx x)
  | 0x01a => some (.iadds x)
  | 0x080 => some (.fadd x)
  | 0x081 => some (.fsub x)
  | 0x082 => some (.fmul x)
  | 0x083 => some (.ffma x)
  | 0x084 => some (.fmin x)
  | 0x085 => some (.fmax x)
  | 0x086 => some (.fcmp x)
  | 0x087 => some (.fclass x)
  | 0x088 => some (.hadd2 x)
  | 0x089 => some (.hmul2 x)
  | 0x08a => some (.hfma2 x)
  | 0x100 => some (.cvt x)
  | 0x101 => some (.cvts x)
  | 0x102 => some (.pack x)
  | 0x103 => some (.unpk x)
  | 0x104 => some (.idp4 x)
  | 0x105 => some (.idp8 x)
  | 0x106 => some (.fdp8 x)
  | 0x107 => some (.fdp4 x)
  | 0x140 => some (.frcp x)
  | 0x141 => some (.frsq x)
  | 0x142 => some (.fsqrt x)
  | 0x143 => some (.fexp2 x)
  | 0x144 => some (.flog2 x)
  | 0x145 => some (.fsin x)
  | 0x146 => some (.fcos x)
  | 0x147 => some (.ftanh x)
  | 0x180 => some (.shfl x)
  | 0x181 => some (.vote x)
  | 0x182 => some (.redux x)
  | 0x183 => some (.scan x)
  | 0x184 => some (.match x)
  | 0x185 => some (.lpart x)
  | 0x186 => some (.lelect x)
  | 0x1c0 => some (.lbr x)
  | 0x1c1 => some (.ljmp x)
  | 0x1c2 => some (.ljoin x)
  | 0x1c3 => some (.lbrk x)
  | 0x1c4 => some (.lend x)
  | 0x1c5 => some (.lkill x)
  | 0x1c6 => some (.lnop x)
  | 0x200 => some (.ld x)
  | 0x201 => some (.st x)
  | 0x202 => some (.atom x)
  | 0x203 => some (.acas x)
  | 0x204 => some (.pref x)
  | 0x205 => some (.cvta x)
  | 0x206 => some (.isap x)
  | 0x207 => some (.fence x)
  | 0x280 => some (.secopy x)
  | 0x281 => some (.segath x)
  | 0x282 => some (.sefence x)
  | 0x2c0 => some (.mlds x)
  | 0x2c1 => some (.mflip x)
  | 0x2c2 => some (.mstr x)
  | 0x2c3 => some (.mdrain x)
  | 0x2c4 => some (.mzero x)
  | 0x2c5 => some (.mfuse x)
  | 0x2c6 => some (.mwait x)
  | 0x300 => some (.lrand x)
  | 0x301 => some (.lmark x)
  | 0x302 => some (.lclock x)
  | _ => none

end Sys2Proof
end

