-- ==== Sys2Proof/WellFormed.lean ====
section
/-! DEFINITION. Which terms of the syntax are instructions: the fields that their word can hold. -/

namespace Sys2Proof

/-- R50: some operand field of the operation names imm. -/
def LaneOp.namesImm (x : LaneOp) (sp : LaneSpec) : Bool :=
  x.d == 323 || x.a == 323 || x.b == 323 || (sp.c != .annot && x.c == 323)

/-- R49, R53 step 1: the fields of a lane operation that its word can hold. -/
def LaneSpec.fits (sp : LaneSpec) (x : LaneOp) : Bool :=
  (x.long || (x.c == 0 && x.imm == 0 && decide (x.m.toNat < 2 ^ 7)))
  && (sp.d != .unused || x.d == 0) && (sp.a != .unused || x.a == 0)
  && (sp.b != .unused || x.b == 0) && (sp.c != .unused || x.c == 0)
  && sp.mOk && sp.cOk && (if sp.immDirect then sp.immOk else x.imm == 0 || x.namesImm sp)

/-- R1: the parts that events name. -/
def coreOk (c : Nat) : Bool := c < 384
def dieOk (d : Nat) : Bool := d < 4
def clusterOk (c : Nat) : Bool := c < 96
def queueOk (q : Nat) : Bool := q < 4

/-- An instruction whose fields its word can hold; for an event, one that names existing parts of the package. -/
def Instr.wf (i : Instr) : Bool :=
  match i.laneSpec, i.laneOp with
  | some sp, some x => sp.fits x
  | _, _ =>
    match i with
    | .sld _ _ _ _ | .sst _ _ _ _ => true
    | .samoLoad _ _ w o _ => (w == .w32 || w == .w64) && o.okLoad
    | .samoStore _ _ w o _ => (w == .w32 || w == .w64) && o.okStore
    | .samo _ _ _ _ w _ _ => w == .w32 || w == .w64
    | .scas _ _ _ w _ _ => w == .w32 || w == .w64
    | .rgive n | .rclaim n => 1 ≤ n.toNat && n.toNat ≤ 40
    | .glde _ f => f.toNat < 12
    | .gskip _ _ _ n => n != 0
    | .watchOverflowRecheck c | .boUpdatePerform c | .mldsComplete c | .mflipEffect c | .mstrComplete c
    | .mzeroComplete c | .mfuseEffect c | .calendarSlotBoundary c | .criticalTrip c | .quadrantEntryStart c => coreOk c
    | .accExchange c _ | .blockPlacement _ c | .throttle c _ => coreOk c
    | .seEntryStart c q | .seFaultResume c q | .sefenceArrive c q => coreOk c && queueOk q
    | .entryCompletion c q => coreOk c && q ≤ 4
    | .contextRestore _ c | .inFieldTest c | .testDeferred c | .inFieldTestEnd c _ => clusterOk c
    | .deferredCredit d | .scrub d _ | .cleanPoolGrant d | .softRepairEnd d | .filterRun d | .lanternWindow d => dieOk d
    | .tableRebuild _ d | .patrol d _ _ | .lanternEvent d _ _ | .lanternExport d _ | .lanternSramError d _ => dieOk d
    | .softRepair r => dieOk r.die && r.stack < 3 && r.channel < 32
    | .linkReplay p _ | .linkRetrain p _ | .xoff p _ | .portDown p => p < 16
    | _ => true

/-- A word's two operations (R48). -/
def Instr.longForm (i : Instr) : Bool := match i.laneOp with | some x => x.long | none => false

end Sys2Proof
end

