-- ==== Sys2Proof/Decode.lean ====
section
/-! DEFINITION. Decoding of the three kinds of word (R42 to R55), total on any bits and refusing by name, the static
checks of R51 and R52, and the encoders. A word is a number whose bit 0 is bit 0 of the word (R6). -/

namespace Sys2Proof

/-- Why a word is refused: the ILLEGAL code of R218 (1 UNDEF, 4 OPERAND, 5 PAIR), its slot (0 long, 1 A, 2 B, 3 scalar),
its field (0 op or fn, 1 d, 2 a, 3 b, 4 c, 5 modifier, 6 header or imm, 7 none) and the field's value. -/
structure DecErr where
  code : Nat
  slot : Nat
  field : Nat
  value : Nat
  deriving DecidableEq, Repr

/-- A decoded lane word (R48). -/
inductive LaneBody where
  | one (i : Instr)
  | two (i j : Instr)
  deriving DecidableEq, Repr

structure LaneWord where
  pred : BitVec 3
  neg : Bool
  y : Bool
  body : LaneBody
  deriving DecidableEq, Repr

/-- Least significant bits of a number as a flag. -/
def bitAt (w k : Nat) : Bool := w / 2 ^ k % 2 == 1

/-! ### Scalar words -/

def undef (field value : Nat) : Except DecErr Instr := .error { code := 1, slot := 3, field, value }

/-- R43, R47: a field that must be zero. -/
def need0 (field value : Nat) (k : Except DecErr Instr) : Except DecErr Instr :=
  if value = 0 then k else undef field value

/-- R45: SOP, by fn. -/
def decodeSop (w : Nat) : Except DecErr Instr :=
  let d : BitVec 5 := bits w 21 5
  let a : BitVec 5 := bits w 16 5
  let b : BitVec 5 := bits w 11 5
  match w % 2 ^ 11 with
  | 0 => .ok (.sadd d a b)
  | 1 => .ok (.ssub d a b)
  | 2 => .ok (.smul d a b)
  | 3 => .ok (.smulh d a b)
  | 4 => .ok (.smulhu d a b)
  | 5 => .ok (.sand d a b)
  | 6 => .ok (.sor d a b)
  | 7 => .ok (.sxor d a b)
  | 8 => .ok (.sshl d a b)
  | 9 => .ok (.sshr d a b)
  | 10 => .ok (.ssra d a b)
  | 11 => .ok (.sslt d a b)
  | 12 => .ok (.ssltu d a b)
  | 13 => .ok (.smin d a b)
  | 14 => .ok (.smax d a b)
  | 15 => need0 3 b.toNat (.ok (.sclz d a))
  | 16 => need0 3 b.toNat (.ok (.spopc d a))
  | n => undef 0 n

/-- R46: the ordering and scope of a scalar atomic. -/
def withOrder (w : Nat) (ok : Ord → Bool) (k : Width → Ord → Scope → Except DecErr Instr) : Except DecErr Instr :=
  match Ord.ofCode (w / 2 ^ 3 % 8), Scope.ofCode (w % 8) with
  | some o, some sc => if ok o then k (if bitAt w 6 then .w64 else .w32) o sc else undef 0 (w % 2 ^ 11)
  | _, _ => undef 0 (w % 2 ^ 11)

/-- R46: SAMO, by aop. -/
def decodeSamo (w : Nat) : Except DecErr Instr :=
  let d : BitVec 5 := bits w 21 5
  let a : BitVec 5 := bits w 16 5
  let b : BitVec 5 := bits w 11 5
  match w / 2 ^ 7 % 2 ^ 4 with
  | 9 => need0 3 b.toNat (withOrder w Ord.okLoad (fun wd o sc => .ok (.samoLoad d a wd o sc)))
  | 10 => need0 1 d.toNat (withOrder w Ord.okStore (fun wd o sc => .ok (.samoStore a b wd o sc)))
  | n =>
    match Aop.ofCode n with
    | some op => withOrder w (fun _ => true) (fun wd o sc => .ok (.samo d a b op wd o sc))
    | none => undef 0 (w % 2 ^ 11)

/-- R42 to R47: a 32-bit scalar word. Where several fields fail, the detail names the first of sd, sa, sb and the rest (log entry 66, DESIGN
CHOICE). -/
def decodeScalar (w : Nat) : Except DecErr Instr :=
  let d : BitVec 5 := bits w 21 5
  let a : BitVec 5 := bits w 16 5
  let b : BitVec 5 := bits w 11 5
  let k : BitVec 16 := bits w 0 16
  let k11 : BitVec 11 := bits w 0 11
  let z1 := need0 1 d.toNat
  let z2 := need0 2 a.toNat
  let z3 := need0 3 b.toNat
  let z6 := need0 6 k11.toNat
  let sh (c : BitVec 6 → Instr) : Except DecErr Instr := if k.toNat < 64 then .ok (c (bits w 0 6)) else undef 6 k.toNat
  match w / 2 ^ 26 % 2 ^ 6 with
  | 0x00 => decodeSop w
  | 0x01 => .ok (.saddi d a k)
  | 0x02 => .ok (.sandi d a k)
  | 0x03 => .ok (.sori d a k)
  | 0x04 => .ok (.sxori d a k)
  | 0x05 => sh (.sshli d a)
  | 0x06 => sh (.sshri d a)
  | 0x07 => sh (.ssrai d a)
  | 0x08 => .ok (.sslti d a k)
  | 0x09 => .ok (.ssltiu d a k)
  | 0x0A => z2 (.ok (.slui d k))
  | 0x10 => match Width.ofCode (w / 2 ^ 14 % 4) with
    | some wd => .ok (.sld d a wd (bits w 0 14))
    | none => undef 6 0
  | 0x11 => match Width.ofCode (w / 2 ^ 14 % 4) with
    | some wd => .ok (.sst d a wd (bits w 0 14))
    | none => undef 6 0
  | 0x12 => decodeSamo w
  | 0x13 => if w / 2 ^ 7 % 2 ^ 4 = 0 then withOrder w (fun _ => true) (fun wd o sc => .ok (.scas d a b wd o sc)) else undef 0 k11.toNat
  | 0x18 => match Cond.ofCode (w / 2 ^ 23 % 8) with
    | some c => .ok (.sb c (bits w 18 5) (bits w 13 5) (bits w 0 13))
    | none => undef 4 (w / 2 ^ 23 % 8)
  | 0x19 => .ok (.sjal d (bits w 0 21))
  | 0x1A => .ok (.sjr d a k)
  | 0x20 => z1 (.ok (.lrun a k))
  | 0x21 => z1 (z2 (z3 (z6 (.ok .lwait))))
  | 0x22 => z1 (z3 (z6 (.ok (.upush a))))
  | 0x23 => z2 (z3 (if k11.toNat < 16 then .ok (.sgetw d (bits w 0 4)) else undef 6 k11.toNat))
  | 0x24 => z1 (z2 (z3 (if 1 ≤ k11.toNat ∧ k11.toNat ≤ 40 then .ok (.rgive k11) else undef 6 k11.toNat)))
  | 0x25 => z1 (z2 (z3 (if 1 ≤ k11.toNat ∧ k11.toNat ≤ 40 then .ok (.rclaim k11) else undef 6 k11.toNat)))
  | 0x26 => z6 (.ok (.seal d a b))
  | 0x27 => z1 (z2 (z3 (z6 (.ok .mcommit))))
  | 0x28 => z2 (z3 (match SysReg.ofNum k11.toNat with | some r => .ok (.sysr d r) | none => undef 6 k11.toNat))
  | 0x29 => z1 (z3 (match SysReg.ofNum k11.toNat with | some r => .ok (.sysw r a) | none => undef 6 k11.toNat))
  | 0x2A => z1 (z2 (z3 (.ok (.trap k11))))
  | 0x2B => z1 (z2 (z3 (z6 (.ok .eret))))
  | 0x2C => z1 (z2 (z3 (match FenceKind.ofCode (w % 4), Scope.ofCode (w / 4 % 8) with
    | some kd, some sc => if k11.toNat < 32 then .ok (.sfence kd sc) else undef 6 k11.toNat
    | _, _ => undef 6 k11.toNat)))
  | 0x30 => z1 (z6 (.ok (.tenq a b)))
  | 0x31 => z3 (z6 (.ok (.tfork d a)))
  | 0x32 => z1 (z6 (.ok (.tjoin a b)))
  | 0x33 => z1 (z2 (z3 (z6 (.ok .trigger))))
  | 0x34 => z1 (z2 (z3 (z6 (.ok .texit))))
  | 0x35 => z1 (z2 (z3 (z6 (.ok .tyield))))
  | 0x38 => z1 (z2 (z3 (if k11.toNat < 16 then .ok (.bar (bits w 0 4)) else undef 6 k11.toNat)))
  | 0x39 => z1 (.ok (.boinit a b k11))
  | 0x3A => z1 (z3 (z6 (.ok (.boarrive a))))
  | 0x3B => z1 (.ok (.boexpect a b k11))
  | 0x3C => z1 (z3 (if k11.toNat < 2 then .ok (.bowait a (bitAt w 0)) else undef 6 k11.toNat))
  | 0x3D => z3 (z6 (.ok (.botest d a)))
  | 0x3E => z1 (z3 (z6 (.ok (.watch a))))
  | 0x3F => z3 (if k11.toNat < 2 then .ok (.waitw d a (bitAt w 0)) else undef 6 k11.toNat)
  | n => undef 0 n

/-! ### Lane words -/

/-- R53 step 1 for one decoded operation: the first field that must be zero, or modifier value that is undefined, in the order d, a, b,
c, modifier, imm (log entry 66, DESIGN CHOICE). -/
def undefField (i : Instr) : Option (Nat × Nat) :=
  match i.laneSpec, i.laneOp with
  | some sp, some x =>
    if sp.d == .unused && x.d != 0 then some (1, x.d.toNat)
    else if sp.a == .unused && x.a != 0 then some (2, x.a.toNat)
    else if sp.b == .unused && x.b != 0 then some (3, x.b.toNat)
    else if sp.c == .unused && x.c != 0 then some (4, x.c.toNat)
    else if !sp.cOk then some (4, x.c.toNat)
    else if !sp.mOk then some (5, x.m.toNat)
    else if sp.immDirect && !sp.immOk then some (6, x.imm.toNat)
    else if !sp.immDirect && x.imm != 0 && !x.namesImm sp then some (6, x.imm.toNat)
    else none
  | _, _ => none

/-- R49: one operation from its fields. -/
def decodeOp (slot op : Nat) (x : LaneOp) : Except DecErr Instr :=
  match laneOfCode op x with
  | none => .error { code := 1, slot, field := 0, value := op }
  | some i =>
    match undefField i with
    | none => .ok i
    | some (field, value) => .error { code := 1, slot, field, value }

/-- R49: the operation of a 44-bit short slot. -/
def decodeShort (slot s : Nat) : Except DecErr Instr :=
  decodeOp slot (s / 2 ^ 34 % 2 ^ 10)
    { long := false, d := bits s 25 9, a := bits s 16 9, b := bits s 7 9, c := 0, m := bits (s % 2 ^ 7) 0 10, imm := 0 }

/-- R48, R49 and R53 step 1: a 96-bit lane word. The header bits come first, slot A before slot B (log entry 66, DESIGN CHOICE). -/
def decodeLane (w : Nat) : Except DecErr LaneWord :=
  let pred : BitVec 3 := bits w 92 3
  if w / 2 ^ 88 % 4 ≠ 0 then .error { code := 1, slot := if bitAt w 95 then 1 else 0, field := 6, value := w / 2 ^ 88 % 4 }
  else if bitAt w 95 then
    match decodeShort 1 (w / 2 ^ 44 % 2 ^ 44), decodeShort 2 (w % 2 ^ 44) with
    | .ok i, .ok j => .ok { pred, neg := bitAt w 91, y := bitAt w 90, body := .two i j }
    | .error e, _ => .error e
    | _, .error e => .error e
  else
    match decodeOp 0 (w / 2 ^ 78 % 2 ^ 10)
        { long := true, d := bits w 69 9, a := bits w 60 9, b := bits w 51 9, c := bits w 42 9, m := bits w 32 10, imm := bits w 0 32 } with
    | .ok i => .ok { pred, neg := bitAt w 91, y := bitAt w 90, body := .one i }
    | .error e => .error e

/-! ### R51: operand codes -/

def isV (c : Nat) : Bool := c < 320

/-- R149, R151, R152, R154: whether the operation works on register pairs. -/
def Instr.is64 : Instr → Bool
  | .ld x | .st x => x.mb 0 2 == 3
  | .atom x | .acas x => x.mb 4 2 == 3
  | .cvta x => x.mb 2 1 == 0
  | _ => false

/-- R51: legal source codes; `n` is the number of lane registers of the allotment. -/
def srcOk (long : Bool) (n c : Nat) : Bool :=
  if c < 320 then c < n
  else c ≤ 322 || (c == 323 && long) || (324 ≤ c && c ≤ 332) || (336 ≤ c && c ≤ 343) || (384 ≤ c && c ≤ 447 && long)

/-- R51: legal class V destinations. -/
def dstVOk (long : Bool) (n c : Nat) : Bool :=
  if c < 320 then c < n else c == 322 || c == 332 || (384 ≤ c && c ≤ 447 && long)

/-- An even v register whose pair lies in the allotment (R149). -/
def pairOk (n c : Nat) : Bool := c < 320 && c % 2 == 0 && c + 1 < n

def roleOk (i : Instr) (x : LaneOp) (n : Nat) (r : Role) (c : Nat) : Bool :=
  match r with
  | .unused | .annot => true
  | .src => srcOk x.long n c
  | .dstV => dstVOk x.long n c
  | .dstThird => dstVOk x.long n c
  | .dstP => 336 ≤ c && c ≤ 342
  | .dstW => 324 ≤ c && c ≤ 331
  | .srcPair =>
    if i.is64 then
      match i with
      | .atom _ => if isV c then pairOk n c else srcOk x.long n c
      | .acas _ => pairOk n c
      | _ => pairOk n c || c == 322
    else srcOk x.long n c
  | .dstPair => if i.is64 then pairOk n c || c == 322 else dstVOk x.long n c
  | .dstCas => if i.is64 then pairOk n c else dstVOk x.long n c
  | .base => pairOk n c || c == 320 || c == 322 || (324 ≤ c && c ≤ 331)
  | .pred => 336 ≤ c && c ≤ 343
  | .vbase => c < 320 && c < n
  | .sel => c == 320 || c == 322 || (c == 323 && x.long) || (324 ≤ c && c ≤ 331)
  | .nine => c < 320 && c + 8 < n
  | .fenceObj => if x.mb 4 1 == 1 then c != 322 && srcOk x.long n c else c == 322
  | .scale => if x.mb 3 1 == 1 then srcOk x.long n c else c == 322

/-- R53 step 4 for one operation: the first field whose code is illegal in its position. -/
def operandField (i : Instr) (n : Nat) : Option (Nat × Nat) :=
  match i.laneSpec, i.laneOp with
  | some sp, some x =>
    if !roleOk i x n sp.d x.d.toNat then some (1, x.d.toNat)
    else if !roleOk i x n sp.a x.a.toNat then some (2, x.a.toNat)
    else if !roleOk i x n sp.b x.b.toNat then some (3, x.b.toNat)
    else if !roleOk i x n sp.c x.c.toNat then some (4, x.c.toNat)
    else none
  | _, _ => none

/-- R53 step 4 for a word: slot A comes before slot B, and d, a, b, c within a slot (log entry 66, DESIGN CHOICE). -/
def LaneWord.operandErr (w : LaneWord) (n : Nat) : Option DecErr :=
  let at' (slot : Nat) (i : Instr) : Option DecErr :=
    (operandField i n).map (fun p => { code := 4, slot, field := p.1, value := p.2 })
  match w.body with
  | .one i => at' 0 i
  | .two i j => (at' 1 i).orElse (fun _ => at' 2 j)

/-! ### R52: pairing -/

/-- The codes of the registers that a slot writes; IMOVX counts with its base code (log entry 67, DESIGN CHOICE). -/
def dstCodes (i : Instr) : List Nat :=
  match i.laneSpec, i.laneOp with
  | some sp, some x =>
    match sp.d with
    | .dstV | .dstThird | .dstP | .dstW | .vbase | .dstCas => [x.d.toNat]
    | .dstPair => if i.is64 && isV x.d.toNat then [x.d.toNat, x.d.toNat + 1] else [x.d.toNat]
    | _ => []
  | _, _ => []

def srcCodesOf (i : Instr) (r : Role) (c : Nat) : List Nat :=
  match r with
  | .src | .sel | .scale | .pred | .fenceObj | .vbase => [c]
  | .base => if isV c then [c, c + 1] else [c]
  | .srcPair => if i.is64 && isV c then [c, c + 1] else [c]
  | _ => []

/-- The codes of the registers and other operands that a slot reads. -/
def srcCodes (i : Instr) : List Nat :=
  match i.laneSpec, i.laneOp with
  | some sp, some x =>
    (match sp.d with
      | .dstThird => if x.long then [] else [x.d.toNat]
      | .vbase => []
      | r => srcCodesOf i r x.d.toNat)
    ++ srcCodesOf i sp.a x.a.toNat ++ srcCodesOf i sp.b x.b.toNat ++ srcCodesOf i sp.c x.c.toNat
  | _, _ => []

def inIntFp (i : Instr) : Bool :=
  match i.laneSpec with | some sp => sp.cls == .int || sp.cls == .fp | none => false

def pairable (i : Instr) : Bool :=
  match i.laneSpec with | some sp => !sp.longOnly | none => false

/-- R52 rules 1, 2 and 4 to 7 (rule 3 is part of R51). -/
def pairLegal (i j : Instr) : Bool :=
  let da := dstCodes i
  let db := dstCodes j
  let reads := ((srcCodes i ++ srcCodes j).filter isV).eraseDups
  pairable i && pairable j && (inIntFp i || inIntFp j)
  && da.all (fun p => db.all (fun q => !(isV p && isV q && p % 4 == q % 4)))
  && da.all (fun p => db.all (fun q => isV p || isV q || p != q || p == 322))
  && decide (reads.length ≤ 4)
  && (List.range 4).all (fun k => decide ((reads.filter (fun r => r % 4 == k)).length ≤ 2))
  && (da.filter (· != 322)).all (fun p => !(srcCodes j).contains p)

/-- R53 step 5: the detail names slot A and no field (log entry 66, DESIGN CHOICE). -/
def LaneWord.pairErr (w : LaneWord) : Option DecErr :=
  match w.body with
  | .one _ => none
  | .two i j => if pairLegal i j then none else some { code := 5, slot := 1, field := 7, value := 0 }

/-! ### Lantern words (R55) -/

def decodeLantern (w : Nat) : Option Instr :=
  let d : BitVec 3 := bits w 24 3
  let a : BitVec 3 := bits w 21 3
  let b : BitVec 3 := bits w 17 3
  let bo : BitVec 3 := bits w 18 3
  let o : BitVec 12 := bits w 0 12
  let la (r : BitVec 3 → BitVec 3 → BitVec 3 → Instr) (m : BitVec 3 → BitVec 3 → BitVec 20 → Instr) : Option Instr :=
    if bitAt w 20 then some (m d a (bits w 0 20)) else if w % 2 ^ 17 = 0 then some (r d a b) else none
  let lo (r : Instr) : Option Instr := if d = 0 ∧ w / 2 ^ 12 % 2 ^ 6 = 0 then some r else none
  match w / 2 ^ 27 % 2 ^ 5 with
  | 0x00 => if w / 2 ^ 6 % 2 ^ 18 = 0 ∧ w % 2 ^ 6 < 12 then some (.glde d (bits w 0 6)) else none
  | 0x01 => some (.gldc d (bits w 0 24))
  | 0x02 => la .gadd .gaddImm
  | 0x03 => la .gsub .gsubImm
  | 0x04 => la .gand .gandImm
  | 0x05 => la .gor .gorImm
  | 0x06 => la .gshl .gshlImm
  | 0x07 => la .gshr .gshrImm
  | 0x08 => la .gmin .gminImm
  | 0x09 => la .gmax .gmaxImm
  | 0x0A => match Cond.ofCode (w / 2 ^ 24 % 8) with
    | some c => if w / 2 ^ 6 % 2 ^ 12 = 0 ∧ w % 2 ^ 6 ≠ 0 then some (.gskip c a bo (bits w 0 6)) else none
    | none => none
  | 0x0B => lo (.ghist a bo o)
  | 0x0C => lo (.gsketch a bo o)
  | 0x0D => if bo = 0 then lo (.gcount a o) else none
  | 0x0E => lo (.gsample a bo o)
  | 0x0F => lo (.gtrig a bo o)
  | 0x10 => if w % 2 ^ 27 = 0 then some .gend else none
  | _ => none

/-! ### Encoders -/

def enc3 (op : Nat) (d a b : BitVec 5) (k : Nat) : Nat :=
  op * 2 ^ 26 + d.toNat * 2 ^ 21 + a.toNat * 2 ^ 16 + b.toNat * 2 ^ 11 + k
def encI (op : Nat) (d a : BitVec 5) (k : Nat) : Nat := op * 2 ^ 26 + d.toNat * 2 ^ 21 + a.toNat * 2 ^ 16 + k
def encFn (aop : Nat) (w : Width) (o : Ord) (sc : Scope) : Nat :=
  aop * 2 ^ 7 + (if w = .w64 then 2 ^ 6 else 0) + o.code * 2 ^ 3 + sc.code
def encG (op : Nat) (d a : BitVec 3) (k : Nat) : Nat := op * 2 ^ 27 + d.toNat * 2 ^ 24 + a.toNat * 2 ^ 21 + k
def encGr (op : Nat) (d a b : BitVec 3) : Nat := encG op d a (b.toNat * 2 ^ 17)
def encGi (op : Nat) (d a : BitVec 3) (k : BitVec 20) : Nat := encG op d a (2 ^ 20 + k.toNat)
def encGo (op : Nat) (a b : BitVec 3) (o : BitVec 12) : Nat := encG op 0 a (b.toNat * 2 ^ 18 + o.toNat)

/-- The 32-bit word of a scalar or Lantern instruction; `none` for the rows that are no 32-bit word. -/
def encode32 : Instr → Option Nat
  | .sadd d a b => some (enc3 0 d a b 0)
  | .ssub d a b => some (enc3 0 d a b 1)
  | .smul d a b => some (enc3 0 d a b 2)
  | .smulh d a b => some (enc3 0 d a b 3)
  | .smulhu d a b => some (enc3 0 d a b 4)
  | .sand d a b => some (enc3 0 d a b 5)
  | .sor d a b => some (enc3 0 d a b 6)
  | .sxor d a b => some (enc3 0 d a b 7)
  | .sshl d a b => some (enc3 0 d a b 8)
  | .sshr d a b => some (enc3 0 d a b 9)
  | .ssra d a b => some (enc3 0 d a b 10)
  | .sslt d a b => some (enc3 0 d a b 11)
  | .ssltu d a b => some (enc3 0 d a b 12)
  | .smin d a b => some (enc3 0 d a b 13)
  | .smax d a b => some (enc3 0 d a b 14)
  | .sclz d a => some (enc3 0 d a 0 15)
  | .spopc d a => some (enc3 0 d a 0 16)
  | .saddi d a k => some (encI 1 d a k.toNat)
  | .sandi d a k => some (encI 2 d a k.toNat)
  | .sori d a k => some (encI 3 d a k.toNat)
  | .sxori d a k => some (encI 4 d a k.toNat)
  | .sshli d a k => some (encI 5 d a k.toNat)
  | .sshri d a k => some (encI 6 d a k.toNat)
  | .ssrai d a k => some (encI 7 d a k.toNat)
  | .sslti d a k => some (encI 8 d a k.toNat)
  | .ssltiu d a k => some (encI 9 d a k.toNat)
  | .slui d k => some (encI 0x0A d 0 k.toNat)
  | .sld d a w off => some (encI 0x10 d a (w.code * 2 ^ 14 + off.toNat))
  | .sst d a w off => some (encI 0x11 d a (w.code * 2 ^ 14 + off.toNat))
  | .samo d a b op w o sc => some (enc3 0x12 d a b (encFn op.code w o sc))
  | .samoLoad d a w o sc => some (enc3 0x12 d a 0 (encFn 9 w o sc))
  | .samoStore a b w o sc => some (enc3 0x12 0 a b (encFn 10 w o sc))
  | .scas d a b w o sc => some (enc3 0x13 d a b (encFn 0 w o sc))
  | .sb c a b off => some (0x18 * 2 ^ 26 + c.code * 2 ^ 23 + a.toNat * 2 ^ 18 + b.toNat * 2 ^ 13 + off.toNat)
  | .sjal d off => some (0x19 * 2 ^ 26 + d.toNat * 2 ^ 21 + off.toNat)
  | .sjr d a k => some (encI 0x1A d a k.toNat)
  | .lrun a k => some (encI 0x20 0 a k.toNat)
  | .lwait => some (enc3 0x21 0 0 0 0)
  | .upush a => some (enc3 0x22 0 a 0 0)
  | .sgetw d k => some (enc3 0x23 d 0 0 k.toNat)
  | .rgive n => some (enc3 0x24 0 0 0 n.toNat)
  | .rclaim n => some (enc3 0x25 0 0 0 n.toNat)
  | .seal d a b => some (enc3 0x26 d a b 0)
  | .mcommit => some (enc3 0x27 0 0 0 0)
  | .sysr d r => some (enc3 0x28 d 0 0 r.num)
  | .sysw r a => some (enc3 0x29 0 a 0 r.num)
  | .trap k => some (enc3 0x2A 0 0 0 k.toNat)
  | .eret => some (enc3 0x2B 0 0 0 0)
  | .sfence k sc => some (enc3 0x2C 0 0 0 (sc.code * 4 + k.code))
  | .tenq a b => some (enc3 0x30 0 a b 0)
  | .tfork d a => some (enc3 0x31 d a 0 0)
  | .tjoin a b => some (enc3 0x32 0 a b 0)
  | .trigger => some (enc3 0x33 0 0 0 0)
  | .texit => some (enc3 0x34 0 0 0 0)
  | .tyield => some (enc3 0x35 0 0 0 0)
  | .bar k => some (enc3 0x38 0 0 0 k.toNat)
  | .boinit a b k => some (enc3 0x39 0 a b k.toNat)
  | .boarrive a => some (enc3 0x3A 0 a 0 0)
  | .boexpect a b k => some (enc3 0x3B 0 a b k.toNat)
  | .bowait a ph => some (enc3 0x3C 0 a 0 (if ph then 1 else 0))
  | .botest d a => some (enc3 0x3D d a 0 0)
  | .watch a => some (enc3 0x3E 0 a 0 0)
  | .waitw d a nt => some (enc3 0x3F d a 0 (if nt then 1 else 0))
  | .glde d f => some (encG 0 d 0 f.toNat)
  | .gldc d k => some (1 * 2 ^ 27 + d.toNat * 2 ^ 24 + k.toNat)
  | .gadd d a b => some (encGr 2 d a b)
  | .gaddImm d a k => some (encGi 2 d a k)
  | .gsub d a b => some (encGr 3 d a b)
  | .gsubImm d a k => some (encGi 3 d a k)
  | .gand d a b => some (encGr 4 d a b)
  | .gandImm d a k => some (encGi 4 d a k)
  | .gor d a b => some (encGr 5 d a b)
  | .gorImm d a k => some (encGi 5 d a k)
  | .gshl d a b => some (encGr 6 d a b)
  | .gshlImm d a k => some (encGi 6 d a k)
  | .gshr d a b => some (encGr 7 d a b)
  | .gshrImm d a k => some (encGi 7 d a k)
  | .gmin d a b => some (encGr 8 d a b)
  | .gminImm d a k => some (encGi 8 d a k)
  | .gmax d a b => some (encGr 9 d a b)
  | .gmaxImm d a k => some (encGi 9 d a k)
  | .gskip c a b n => some (0x0A * 2 ^ 27 + c.code * 2 ^ 24 + a.toNat * 2 ^ 21 + b.toNat * 2 ^ 18 + n.toNat)
  | .ghist a b o => some (encGo 0x0B a b o)
  | .gsketch a b o => some (encGo 0x0C a b o)
  | .gcount a o => some (encGo 0x0D a 0 o)
  | .gsample a b o => some (encGo 0x0E a b o)
  | .gtrig a b o => some (encGo 0x0F a b o)
  | .gend => some (0x10 * 2 ^ 27)
  | _ => none

/-- The 44-bit short slot of an operation (R49). -/
def encodeShort (i : Instr) : Option Nat :=
  match i.laneSpec, i.laneOp with
  | some sp, some x => some (sp.code * 2 ^ 34 + x.d.toNat * 2 ^ 25 + x.a.toNat * 2 ^ 16 + x.b.toNat * 2 ^ 7 + x.m.toNat % 2 ^ 7)
  | _, _ => none

/-- The 78 body bits and op10 of a long-form operation (R49). -/
def encodeLong (i : Instr) : Option Nat :=
  match i.laneSpec, i.laneOp with
  | some sp, some x => some (sp.code * 2 ^ 78 + x.d.toNat * 2 ^ 69 + x.a.toNat * 2 ^ 60 + x.b.toNat * 2 ^ 51 + x.c.toNat * 2 ^ 42
      + x.m.toNat * 2 ^ 32 + x.imm.toNat)
  | _, _ => none

def encHeader (pair : Bool) (w : LaneWord) : Nat :=
  (if pair then 2 ^ 95 else 0) + w.pred.toNat * 2 ^ 92 + (if w.neg then 2 ^ 91 else 0) + (if w.y then 2 ^ 90 else 0)

/-- The 96-bit word of a lane word (R48). -/
def LaneWord.encode (w : LaneWord) : Option Nat :=
  match w.body with
  | .one i => (encodeLong i).map (encHeader false w + ·)
  | .two i j =>
    match encodeShort i, encodeShort j with
    | some p, some q => some (encHeader true w + p * 2 ^ 44 + q)
    | _, _ => none

/-- The words of an instruction written alone: 32 bits, or an unpredicated 96-bit word. -/
def encode (i : Instr) : Option Nat :=
  match encode32 i with
  | some w => some w
  | none => LaneWord.encode { pred := 7, neg := false, y := false, body := .one i }

/-- The instruction this decoder reads from the `nbits` low bits of `w`. A 32-bit word is read as a scalar word; one that
is no scalar word is read as a Lantern word, since the two are fetched from different places and share the bit patterns
(log entry 12, DESIGN CHOICE). Any other length is a lane word, whose single operation or slot A is given. -/
def decodeTableWord (nbits w : Nat) : Option Instr :=
  if nbits ≤ 32 then
    match decodeScalar w with
    | .ok i => some i
    | .error _ => decodeLantern w
  else
    match decodeLane w with
    | .ok { body := .one i, .. } => some i
    | .ok { body := .two i _, .. } => some i
    | .error _ => none

end Sys2Proof
end

