-- ==== Sys2Proof/Machine/Float.lean ====
section
/-! DEFINITION. Number formats, rounding, exact arithmetic and the order of sums (R59 to R78, R121). -/

namespace Sys2Proof.Machine

/-- R61: a floating-point format: exponent and mantissa bits, bias, and its special patterns
(0 infinities and NaN at the top exponent, 1 E4M3, 2 E2M1). -/
structure Fmt where
  eb : Nat
  mb : Nat
  bias : Nat
  special : Nat
  deriving DecidableEq, Repr

namespace Fmt
def f32 : Fmt := ⟨8, 23, 127, 0⟩
def f16 : Fmt := ⟨5, 10, 15, 0⟩
def bf16 : Fmt := ⟨8, 7, 127, 0⟩
def e4m3 : Fmt := ⟨4, 3, 7, 1⟩
def e5m2 : Fmt := ⟨5, 2, 15, 0⟩
def e2m1 : Fmt := ⟨2, 1, 1, 2⟩
/-- Bits of a code. -/
def width (f : Fmt) : Nat := 1 + f.eb + f.mb
/-- R61: the code of the largest finite magnitude. -/
def maxFin (f : Fmt) : Nat := if f.special = 0 then (2 ^ f.eb - 1) * 2 ^ f.mb - 1 else if f.special = 1 then 0x7E else 7
/-- R62, R70: the canonical NaN; E2M1 has none, and a NaN converts to +0. -/
def nan (f : Fmt) : Nat := if f.special = 0 then (2 ^ f.eb - 1) * 2 ^ f.mb + 2 ^ (f.mb - 1) else if f.special = 1 then 0x7F else 0
/-- R70: the code an infinity converts to. -/
def inf (f : Fmt) : Nat := if f.special = 0 then (2 ^ f.eb - 1) * 2 ^ f.mb else if f.special = 1 then 0x7F else 7
/-- The sign bit of a code. -/
def sign (f : Fmt) : Nat := 2 ^ (f.eb + f.mb)
/-- R68: `fzi` and `fzo` apply to FP32, FP16 and BF16. -/
def flushes (f : Fmt) : Bool := f == f32 || f == f16 || f == bf16
end Fmt

/-- R67: rounding modes, coded 0 to 3. -/
inductive Rm where
  | rne | rtz | rup | rdn
  deriving DecidableEq, Repr

def Rm.ofCode (n : Nat) : Rm := match n % 4 with | 0 => .rne | 1 => .rtz | 2 => .rup | _ => .rdn

/-- An exact value: `fin neg m e` is `(-1)^neg m 2^e` with `m` not 0. -/
inductive FVal where
  | nan
  | inf (neg : Bool)
  | zero (neg : Bool)
  | fin (neg : Bool) (m : Nat) (e : Int)
  deriving DecidableEq, Repr

namespace FVal

/-- R61: the value of a code. -/
def decode (f : Fmt) (code : Nat) : FVal :=
  let neg := code / f.sign % 2 = 1
  let mag := code % f.sign
  let ex := mag / 2 ^ f.mb
  let man := mag % 2 ^ f.mb
  if f.special = 0 && ex = 2 ^ f.eb - 1 then (if man = 0 then .inf neg else .nan)
  else if f.special = 1 && mag = 0x7F then .nan
  else if mag = 0 then .zero neg
  else if ex = 0 then .fin neg man (1 - (f.bias : Int) - f.mb)
  else .fin neg (2 ^ f.mb + man) ((ex : Int) - f.bias - f.mb)

/-- Is the code a subnormal of its format. -/
def subnormal (f : Fmt) (code : Nat) : Bool := code % f.sign != 0 && code % f.sign < 2 ^ f.mb

/-- R68: `fzi`: a subnormal input is a zero of its sign. -/
def flushIn (f : Fmt) (fzi : Bool) (code : Nat) : Nat :=
  if fzi && f.flushes && subnormal f code then code / f.sign % 2 * f.sign else code

/-- R67: `m / 2^sh` rounded to an integer. -/
def roundShift (rm : Rm) (neg : Bool) (m sh : Nat) : Nat :=
  let q := m / 2 ^ sh
  let r := m % 2 ^ sh
  let up := match rm with
    | .rne => 2 * r > 2 ^ sh || (2 * r = 2 ^ sh && q % 2 = 1)
    | .rtz => false
    | .rup => r != 0 && !neg
    | .rdn => r != 0 && neg
  if sh != 0 && up then q + 1 else q

/-- `m 2^e` rounded to a multiple of `2^q`, as the multiple's count. -/
def roundAt (rm : Rm) (neg : Bool) (m : Nat) (e q : Int) : Nat :=
  if q ≤ e then m * 2 ^ (e - q).toNat else roundShift rm neg m (q - e).toNat

/-- R70: the code of a finite result beyond the largest finite. -/
def overflow (f : Fmt) (rm : Rm) (neg : Bool) : Nat :=
  let big := f.special != 0 || (match rm with | .rne => false | .rtz => true | .rup => neg | .rdn => !neg)
  (if neg then f.sign else 0) + (if big then f.maxFin else f.inf)

/-- R67, R68, R70: a nonzero finite value rounded once to a code. -/
def roundFin (f : Fmt) (rm : Rm) (fzo : Bool) (neg : Bool) (m : Nat) (e : Int) : Nat :=
  let sgn := if neg then f.sign else 0
  let top := e + (Nat.log2 m : Int)
  let emin : Int := 1 - (f.bias : Int)
  let n := roundAt rm neg m e ((max top emin) - f.mb)
  let free := roundAt rm neg m e (top - f.mb)
  let tiny := (if free = 2 ^ (f.mb + 1) then top + 1 else top) < emin
  if fzo && f.flushes && tiny then sgn
  else
    let mag := if top < emin then n else ((top - emin).toNat) * 2 ^ f.mb + n
    if mag > f.maxFin then overflow f rm neg else sgn + mag

/-- R62, R67, R70: the code of a value rounded once to a format. -/
def encode (f : Fmt) (rm : Rm) (fzo : Bool) : FVal → Nat
  | .nan => f.nan
  | .inf neg => if f.special = 1 then f.nan else (if neg then f.sign else 0) + f.inf
  | .zero neg => if neg then f.sign else 0
  | .fin neg m e => if m = 0 then (if neg then f.sign else 0) else roundFin f rm fzo neg m e

/-- A signed exact value; an exactly zero one takes the sign `zneg`. -/
def ofInt (n : Int) (e : Int) (zneg : Bool) : FVal :=
  if n = 0 then .zero zneg else .fin (n < 0) n.natAbs e

/-- The signed integer `±m 2^(e - q)`, for `q ≤ e`. -/
def scaled (neg : Bool) (m : Nat) (e q : Int) : Int :=
  let k : Int := (m * 2 ^ (e - q).toNat : Nat)
  if neg then -k else k

def negate : FVal → FVal
  | .nan => .nan
  | .inf n => .inf (!n)
  | .zero n => .zero (!n)
  | .fin n m e => .fin (!n) m e

def isNeg : FVal → Bool
  | .nan => false
  | .inf n => n
  | .zero n => n
  | .fin n _ _ => n

def isNan : FVal → Bool
  | .nan => true
  | _ => false

/-- R67, R69: the exact sum; an exact cancellation takes the sign of the mode. -/
def add (rm : Rm) : FVal → FVal → FVal
  | .nan, _ => .nan
  | _, .nan => .nan
  | .inf a, .inf b => if a = b then .inf a else .nan
  | .inf a, _ => .inf a
  | _, .inf b => .inf b
  | .zero a, .zero b => if a = b then .zero a else .zero (rm == .rdn)
  | .zero _, .fin n m e => .fin n m e
  | .fin n m e, .zero _ => .fin n m e
  | .fin a m e, .fin b k f => let q := min e f; ofInt (scaled a m e q + scaled b k f q) q (rm == .rdn)

/-- R69, R72: the exact product. -/
def mul : FVal → FVal → FVal
  | .nan, _ => .nan
  | _, .nan => .nan
  | .inf a, .inf b => .inf (xor a b)
  | .inf a, .fin b _ _ => .inf (xor a b)
  | .fin a _ _, .inf b => .inf (xor a b)
  | .inf _, .zero _ => .nan
  | .zero _, .inf _ => .nan
  | .zero a, .zero b => .zero (xor a b)
  | .zero a, .fin b _ _ => .zero (xor a b)
  | .fin a _ _, .zero b => .zero (xor a b)
  | .fin a m e, .fin b k f => .fin (xor a b) (m * k) (e + f)

/-- R64: a value times `2^k`. -/
def scale (k : Int) : FVal → FVal
  | .fin n m e => .fin n m (e + k)
  | v => v

/-- The order of two values that are not NaN: negative, zero or positive. -/
def cmp : FVal → FVal → Int
  | .inf a, .inf b => if a = b then 0 else if a then -1 else 1
  | .inf a, _ => if a then -1 else 1
  | _, .inf b => if b then 1 else -1
  | .zero _, .zero _ => 0
  | .zero _, .fin n _ _ => if n then 1 else -1
  | .fin n _ _, .zero _ => if n then -1 else 1
  | .fin a m e, .fin b k f => let q := min e f; let d := scaled a m e q - scaled b k f q; if d < 0 then -1 else if d = 0 then 0 else 1
  | _, _ => 0

/-- R70: a value rounded to an integer and saturated to `lo` to `hi`; NaN gives 0. -/
def toInt (rm : Rm) (lo hi : Int) : FVal → Int
  | .nan => 0
  | .inf n => if n then lo else hi
  | .zero _ => 0
  | .fin n m e =>
    let k : Int := roundAt rm n m e 0
    let x := if n then -k else k
    max lo (min hi x)

/-- R73: the aligned 49-bit magnitude with its sticky bit, signed, in units of `2^(emax - 49)`. -/
def contribution (emax : Int) (neg : Bool) (m : Nat) (e : Int) : Int :=
  let w := emax - 48
  let a := if w ≤ e then m * 2 ^ (e - w).toNat else m / 2 ^ (w - e).toNat
  let st := if w ≤ e then 0 else if m % 2 ^ (w - e).toNat = 0 then 0 else 1
  let k : Int := (2 * a + st : Nat)
  if neg then -k else k

/-- R73: the sum of a group of exact products; `rm` fixes the sign of an exact cancellation. -/
def group (rm : Rm) (ps : List FVal) : FVal :=
  if ps.any isNan || (ps.contains (.inf true) && ps.contains (.inf false)) then .nan
  else if ps.contains (.inf true) then .inf true
  else if ps.contains (.inf false) then .inf false
  else
    let tops := ps.filterMap (fun p => match p with | .fin _ m e => some (e + (Nat.log2 m : Int)) | _ => none)
    match tops with
    | [] => .zero (ps.all (fun p => p == .zero true))
    | t :: r =>
      let emax := r.foldl max t
      let sum := ps.foldl (fun s p => match p with | .fin n m e => s + contribution emax n m e | _ => s) (0 : Int)
      ofInt sum (emax - 49) (rm == .rdn)

/-- A value known to lie strictly between `m 2^e` and `(m + 1) 2^e` (`sticky`), or equal to `m 2^e`. -/
def approx (neg : Bool) (m : Nat) (e : Int) (sticky : Bool) : FVal := .fin neg (4 * m + (if sticky then 1 else 0)) (e - 2)

end FVal

/-! Special functions (R121): fixed-point series in integers, `p` fraction bits. -/

namespace Series

/-- Floor of the square root, by `n` binary digits. -/
def isqrtAux (x : Nat) : Nat → Nat → Nat
  | 0, r => r
  | n + 1, r => let t := r + 2 ^ n; isqrtAux x n (if t * t ≤ x then t else r)
def isqrt (x : Nat) : Nat := isqrtAux x (Nat.log2 x / 2 + 1) 0

/-- The sum of `t + t r / k + t r^2 / (k (k+1)) + …`, `n` terms. -/
def expAux (p : Nat) (r : Int) : Nat → Nat → Int → Int → Int
  | 0, _, _, s => s
  | n + 1, k, t, s => let u := t * r / 2 ^ p / (k : Int); expAux p r n (k + 1) u (s + u)
/-- `exp r` for `r` below 1. -/
def exp (p : Nat) (r : Int) : Int := expAux p r (p / 4 + 8) 1 (2 ^ p) (2 ^ p)

/-- The alternating series of sine or cosine from term `t` whose next divisor is `k (k + 1)`. -/
def trigAux (p : Nat) (r2 : Int) : Nat → Nat → Int → Int → Int
  | 0, _, _, s => s
  | n + 1, k, t, s => let u := -(t * r2 / 2 ^ p / ((k * (k + 1) : Nat) : Int)); trigAux p r2 n (k + 2) u (s + u)
def sin (p : Nat) (r : Int) : Int := trigAux p (r * r / 2 ^ p) (p / 8 + 8) 2 r r
def cos (p : Nat) (r : Int) : Int := trigAux p (r * r / 2 ^ p) (p / 8 + 8) 1 (2 ^ p) (2 ^ p)

/-- The sum of `z^(2k+1) / (2k+1)` with sign `sg` to the k: `atanh` (1) or `atan` (-1) of `z`. -/
def atanAux (p : Nat) (sg : Int) (z2 : Int) : Nat → Nat → Int → Int → Int
  | 0, _, _, s => s
  | n + 1, k, t, s => let u := sg * (t * z2 / 2 ^ p); atanAux p sg z2 n (k + 2) u (s + u / ((k + 2 : Nat) : Int))
def atan (p : Nat) (sg z : Int) : Int := atanAux p sg (z * z / 2 ^ p) (p / 3 + 8) 1 z z

def ln2 (p : Nat) : Int := 2 * atan p 1 (2 ^ p / 3)
def pi (p : Nat) : Int := 16 * atan p (-1) (2 ^ p / 5) - 4 * atan p (-1) (2 ^ p / 239)

/-- The signed fixed-point value of `±m 2^e`, floored. -/
def fixed (p : Nat) (neg : Bool) (m : Nat) (e : Int) : Int :=
  let sh := e + p
  let k : Int := if 0 ≤ sh then (m * 2 ^ sh.toNat : Nat) else (m : Int) / 2 ^ (-sh).toNat
  if neg then -k else k

/-- `2^x` with `p` fraction bits, as (mantissa, exponent). -/
def exp2 (p : Nat) (neg : Bool) (m : Nat) (e : Int) : Int × Int :=
  let x := fixed p neg m e
  let n := x / 2 ^ p
  let f := x - n * 2 ^ p
  (exp p (f * ln2 p / 2 ^ p), n)

/-- `log2 (m 2^e)`. -/
def log2 (p : Nat) (m : Nat) (e : Int) : Int :=
  let l := Nat.log2 m
  let t : Int := m * 2 ^ (p - l)
  let z := (t - 2 ^ p) * 2 ^ p / (t + 2 ^ p)
  2 * atan p 1 z * 2 ^ p / ln2 p + (e + l) * 2 ^ p

/-- The quadrant of `x` and its remainder modulo π/2, exactly reduced: `x` is below 2^128. -/
def reduce (p : Nat) (neg : Bool) (m : Nat) (e : Int) : Int × Int :=
  let q := p + 160
  let x := fixed q neg m e
  let h := pi q / 2
  let k := (2 * x + h) / (2 * h)
  (k % 4, (x - k * h) / 2 ^ 160)

/-- `sin` (`c` = 0) or `cos` (`c` = 1). -/
def sincos (p : Nat) (c : Int) (neg : Bool) (m : Nat) (e : Int) : Int :=
  let kr := reduce p neg m e
  match ((kr.1 + c) % 4).toNat with
  | 0 => sin p kr.2
  | 1 => cos p kr.2
  | 2 => -(sin p kr.2)
  | _ => -(cos p kr.2)

/-- `tanh` of a magnitude below 64. -/
def tanh (p : Nat) (m : Nat) (e : Int) : Int :=
  let q := p + 200
  let x := 2 * fixed q false m e
  let l := ln2 q
  let k := x / l
  let ex := exp q (x - k * l) * 2 ^ k.toNat
  (ex - 2 ^ q) * 2 ^ p / (ex + 2 ^ q)

/-- A series result with `p` fraction bits and error below 2^30, cut to `p - 64` bits. -/
def cut (p : Nat) (x : Int) (e : Int) : FVal := FVal.approx (x < 0) (x.natAbs / 2 ^ 64) (e - p + 64) true
/-- Whether the cut cannot depend on the error. -/
def sure (x : Int) : Bool := (x.natAbs - 2 ^ 30) / 2 ^ 64 == (x.natAbs + 2 ^ 30) / 2 ^ 64
/-- The first of two precisions that is sure (log entry 58, DESIGN CHOICE). -/
def best (f : Nat → Int × Int) : FVal :=
  let a := f 448
  if sure a.1 then cut 448 a.1 a.2 else let b := f 1600; cut 1600 b.1 b.2

end Series

/-- R121: the special functions, by op10 minus 0x140, as exact values before the one rounding (log entry 58, DESIGN CHOICE). -/
def sfuExact (op : Nat) (a : FVal) : FVal :=
  match op, a with
  | _, .nan => .nan
  | 0, .zero n => .inf n
  | 0, .inf n => .zero n
  | 0, .fin n m e => let q := 2 ^ 160 / m; FVal.approx n q (-e - 160) (q * m != 2 ^ 160)
  | 1, .zero n => .inf n
  | 1, .inf n => if n then .nan else .zero false
  | 1, .fin n m e =>
    if n then .nan else
      let k := m * 2 ^ (e % 2).toNat
      let q := Series.isqrt (2 ^ 240 / k)
      FVal.approx false q (-(e / 2) - 120) (q * q * k != 2 ^ 240)
  | 2, .zero n => .zero n
  | 2, .inf n => if n then .nan else .inf false
  | 2, .fin n m e =>
    if n then .nan else
      let k := m * 2 ^ (e % 2).toNat * 2 ^ 160
      let q := Series.isqrt k
      FVal.approx false q (e / 2 - 80) (q * q != k)
  | 3, .zero _ => .fin false 1 0
  | 3, .inf n => if n then .zero false else .inf false
  | 3, .fin n m e =>
    let top := e + (Nat.log2 m : Int)
    if 9 ≤ top then .fin false 1 (if n then -400 else 400)
    else if top < -60 then FVal.approx false (if n then 2 ^ 90 - 1 else 2 ^ 90) (-90) true
    else if e ≥ 0 || m % 2 ^ (-e).toNat = 0 then .fin false 1 (Series.fixed 0 n m e)
    else Series.best (fun p => Series.exp2 p n m e)
  | 4, .zero _ => .inf true
  | 4, .inf n => if n then .nan else .inf false
  | 4, .fin n m e =>
    if n then .nan
    else if m = 2 ^ Nat.log2 m then FVal.ofInt (e + (Nat.log2 m : Int)) 0 false
    else Series.best (fun p => (Series.log2 p m e, 0))
  | 5, .zero n => .zero n
  | 5, .inf _ => .nan
  | 5, .fin n m e =>
    if e + (Nat.log2 m : Int) < -60 then FVal.approx n (m * 2 ^ 80 - 1) (e - 80) true
    else Series.best (fun p => (Series.sincos p 0 n m e, 0))
  | 6, .zero _ => .fin false 1 0
  | 6, .inf _ => .nan
  | 6, .fin n m e =>
    if e + (Nat.log2 m : Int) < -60 then FVal.approx false (2 ^ 90 - 1) (-90) true
    else Series.best (fun p => (Series.sincos p 1 n m e, 0))
  | _, .zero n => .zero n
  | _, .inf n => .fin n 1 0
  | _, .fin n m e =>
    let top := e + (Nat.log2 m : Int)
    if top < -60 then FVal.approx n (m * 2 ^ 80 - 1) (e - 80) true
    else if 6 ≤ top then FVal.approx n (2 ^ 90 - 1) (-90) true
    else
      match Series.best (fun p => (Series.tanh p m e, 0)) with
      | .fin _ k f => .fin n k f
      | v => v

/-- R78: the LRAND mixing function. -/
def mix (seed n : W64) : W32 :=
  let x := seed ^^^ n
  let x := (x ^^^ (x >>> 31)) * 0xD6E8FEB86659FD93#64
  let x := (x ^^^ (x >>> 27)) * 0xA3B195354A39B70D#64
  let x := (x ^^^ (x >>> 33)) * 0x8CB92BA72F3D8DD7#64
  (x >>> 32).setWidth 32

/-- R76: i32 saturation. -/
def satI32 (x : Int) : Int := max (-2147483648) (min 2147483647 x)

end Sys2Proof.Machine
end

