-- ==== Sys2Proof/Config.lean ====
section
/-! DEFINITION. What one manufactured part fixes, and the free values (no body: nothing in Lean can evaluate them).
The counter that the free values are applied to is `State.free` (log entry 4, DESIGN CHOICE). -/

namespace Sys2Proof.Config

/-- R91: the 34-bit fuse word of scheduler partition `q = 4 * core + partition` as manufactured (log entry 8, DESIGN CHOICE). -/
opaque fuseWord : Nat → BitVec 34

/-- R184, R185: word 2 of a barrier object after BOINIT, "the core's initial state", which reads undefined. -/
opaque boWord2 : Nat → W32

/-- R225: what a byte of a save area reads after a save, "the image's contents read undefined", by the save and the address (log
entry 3, DESIGN CHOICE). -/
opaque savedByte : Nat → Nat → Byte

/-- R329, R330: the SPDM response of the trusted firmware to a request, which reports whether the untrusted image passed its
verification: its bytes are not in the spec (log entry 9, DESIGN CHOICE). -/
opaque spdmResponse : Nat → Nat → Bool → List Byte

/-- R330 step 1: whether the untrusted firmware image passed verification at this reset (log entry 10, DESIGN CHOICE). -/
opaque firmwareVerified : Nat → Bool

/-- R330 step 4, R248: whether a cluster (24 × die + cluster) failed its in-field test at this reset (log entry 10, DESIGN CHOICE). -/
opaque resetTestFailed : Nat → Nat → Bool

/-- R351: the incarnation in non-volatile storage before the first reset that the model shows; every reset adds 1 (log entry 7, PRESUMED). -/
opaque incarnation : W64

/-- R268, R278: the die, and the number of its pages, that the tables of a version of a MAPPING record take: their format is not
architectural (log entry 63, DESIGN CHOICE). -/
opaque tablePages : Nat → Nat → Nat × Nat

/-- R284: the cycle count of a die's NoC as an event's field 6 shows it, and the clk counts of fields 8 to 11 (clk parked,
clk since enqueue, latency): time in clk is not modelled (log entry 14, DESIGN CHOICE). -/
opaque nocCycles : Nat → W32
/-- R284: the reads of a walk that ended in a page fault, and the channel of a memory event whose address lies in no HBM of this package: neither is
given (log entry 14, DESIGN CHOICE). -/
opaque walkReads : Nat → W32
opaque noChannel : Nat → W32
opaque tapClk : Nat → W32

/-- R205, R208: what an MSTR writes in a column whose stationary elements no loaded plane holds in the pattern of the
leader's plane (log entry 21, DESIGN CHOICE). -/
opaque planeWord : Nat → W32

/-- R218: `tdr2` of ENGINE.ACC_RANGE, "offending scratch offset", where no scratch offset is at fault (log entry 22, DESIGN CHOICE). -/
opaque accRangeOffset : Nat → W32

/-- R275: the channel, of the 96 of its die, of a 4 KiB span of HBM, by its number: the hash is not architectural (log entry 23, DESIGN CHOICE). -/
opaque spanChannel : Nat → Nat
/-- R280: the row of a 64-byte line of HBM in its channel, by its number (log entry 23, DESIGN CHOICE). -/
opaque lineRow : Nat → Nat
/-- R281: whether the bank of a row that is to be repaired has a spare row left (log entry 23, DESIGN CHOICE). -/
opaque spareRow : Nat → Bool

/-- Number of set bits of a fuse word. -/
def goodCount (g : BitVec 34) : Nat := ((List.range 34).filter (fun j => g.getLsbD j)).length

/-- R91: `lanemap.good` of partition `q`: every partition of a shipped part has at least 16 good lanes. -/
def lanemap (q : Nat) : BitVec 34 :=
  if goodCount (fuseWord q) < 16 then BitVec.allOnes 34 else fuseWord q

/-- R91: `passes.n` of partition `q`: 1 when 32 lanes or more are good, else 2. -/
def passes (q : Nat) : Nat := if goodCount (lanemap q) < 32 then 2 else 1

/-- R332: bytes 0 to 7 of the target stamp, the first 16 bytes of SHA-384 over the descriptor of R332 (log entry 11, DEDUCED). -/
def tstamp0 : W64 := 0x48F2A743368E3EE1#64
/-- R332: bytes 8 to 15 of the target stamp. -/
def tstamp1 : W64 := 0x67AFE47356721BD4#64

end Sys2Proof.Config
end

