-- ==== Sys2Proof/Machine/State.lean ====
section
/-! DEFINITION. The whole state of the machine as plain data, the reasons a step can stop, and the state at reset. -/

namespace Sys2Proof.Machine

/-- Sparse data by number: the first entry of a key holds its value, an absent key its default. -/
abbrev Tab (α : Type) := List (Nat × α)

/-- Bytes of one storage: addresses strictly rising, no entry zero (an unlisted byte reads 0), the numbers of the
poisoned ECC units (R161, R275), and the ranges that read undefined: first address, bytes, and the save that wrote them (R225). -/
structure Memory where
  cells : List Host.Cell := []
  poison : List Nat := []
  undef : List (Nat × Nat × Nat) := []
  deriving DecidableEq, Repr, Inhabited

/-- Where a location is homed (R15 to R19, R260, R267). `rev` is a forked task's revision, addressed
virtually; `cap` the tenant's read-only capability page (R323). -/
inductive Space where
  | scratch (blk : Nat) | phys | host | remote (node : Nat) | rev (task : Nat) | cap (tenant : Nat)
  deriving DecidableEq, Repr, Inhabited

/-- R21: a location. -/
structure Loc where
  sp : Space := .phys
  addr : Nat := 0
  deriving DecidableEq, Repr, Inhabited

/-- R163, R168: one entry of a watch set: its line's home, the address as watched, the held hit, and for an overflowed
entry its snapshot and whether the home has signalled since the last recheck; `unreg` when the home had no room for its
registration, and `tag` that of its remote WATCH (R357). -/
structure WatchE where
  loc : Loc := {}
  va : W64 := 0
  hit : Bool := false
  ovf : Bool := false
  snap : List Byte := []
  signalled : Bool := false
  unreg : Bool := false
  tag : Nat := 0
  deriving DecidableEq, Repr, Inhabited

/-- R147, R151: one lane's access as first issued: its address, operand and expected value, and for a cluster-aperture address the
block that it names (R18). -/
structure LaneAcc where
  addr : W64 := 0
  x : W64 := 0
  y : W64 := 0
  dest : Option Nat := none
  deriving DecidableEq, Repr, Inhabited

/-- R159, R160: what is kept of a lane word that issued and did not finish: the accesses of its lanes, the entries popped by operand field, the
unfinished lanes of its memory slot, the pages it has faulted on, whether it may issue again now (a word parked on a
page fault may once FAULT_REPLAY has readied it), whether the whole lane stream parks with it, whether accesses of it are in flight: sent
to another package, or not performed yet; whether it waits with none of its effect (R132, R158); and the record that a detachment
writes (R132). -/
structure Held where
  accs : Tab LaneAcc := []
  popped : Tab W64 := []
  unfinished : W32 := 0
  pages : List Nat := []
  ready : Bool := true
  stream : Bool := false
  flying : Bool := false
  sending : Bool := false
  record : Option Nat := none
  deriving DecidableEq, Repr, Inhabited

/-- R124: a unit: PC, mask, token; whether it waits at an LJOIN (R130); the entries it waits for at an MWAIT, those numbered below
a bound (R207); whether it is a fragment
that has not been taken up by the scheduler yet (R128), and its held word. -/
structure LUnit where
  pc : W64 := 0
  mask : W32 := 0
  token : BitVec 12 := 0
  join : Bool := false
  mwait : Option Nat := none
  queued : Bool := false
  held : Option Held := none
  deriving DecidableEq, Repr, Inhabited

/-- R82, R71: a queued region: its start index and the `fmode` of its LRUN. -/
structure Region where
  start : W64 := 0
  fmode : W32 := 0
  deriving DecidableEq, Repr, Inhabited

/-- R216, R224: why the scalar stream is parked at the instruction SPC names, and what that instruction keeps. -/
inductive SPark where
  | none
  /-- the region wait of R83 edge 4 -/
  | region
  /-- LRUN on a full region queue -/
  | lrun
  /-- UPUSH on a full uniform queue -/
  | upush
  /-- RCLAIM past its region wait, with its age and n (R178) -/
  | claim (age n : Nat)
  /-- BAR k that has arrived, or MCOMMIT (k = 16) -/
  | bar (k : Nat)
  /-- BOWAIT on the object at a scratch offset for a phase other than `ph` -/
  | bowait (off : Nat) (ph : Bool)
  /-- WAITW: absolute deadline, its .nt form, its own timeout, and the ref ticks that the watchdog has counted (R360) -/
  | waitw (deadline : Option Nat) (nt : Bool) (t : Nat) (counted : Nat)
  /-- TJOIN waiting for its child -/
  | join
  /-- TJOIN whose merge is done: the counts still to store (R262), and the page on which their stores faulted -/
  | stores (counts : List W32) (page : Option Nat)
  /-- TFORK waiting for lines: its time t, its order and its need (R261) -/
  | fork (t order need : Nat)
  /-- TFORK whose lines are reserved, waiting for pages, a table entry or answers, and the page on which its cut faulted (R261) -/
  | reserved (need : Nat) (page : Option Nat)
  /-- TENQ or TFORK waiting for a slot or a table entry (R254, R256) -/
  | table
  /-- TENQ whose queue is missing, with its fault record posted (R253) -/
  | noQueue
  /-- TYIELD at the boundary (R222) -/
  | yield
  /-- a scalar access parked on a page fault of a page (R159), and whether FAULT_REPLAY has readied it -/
  | fault (page : Nat) (ready : Bool)
  /-- a scalar store waiting for space in the dirty log (R274) -/
  | dirty
  /-- a scalar access waiting for the response of a tag (R355) -/
  | remote (tag : Nat)
  deriving DecidableEq, Repr, Inhabited

/-- R258: a revision-table entry. -/
structure RevEnt where
  base : Nat := 0
  len : Nat := 0
  etype : Nat := 0
  merge : Nat := 0
  deriving DecidableEq, Repr, Inhabited

/-- R335, R250: a launch record as read. -/
structure Launch where
  entry : W64 := 0
  poolpart : W32 := 0
  beams : Nat := 0
  tile : Nat := 0
  mirror : Bool := false
  pbase : W64 := 0
  prsize : Nat := 0
  nblocks : Nat := 0
  beam : List (BitVec 8) := []
  npred : Nat := 0
  nsucc : Nat := 0
  nrev : Nat := 0
  succ : W64 := 0
  revtab : W64 := 0
  handle : W64 := 0
  objver : Nat := 0
  args : W64 := 0
  rsv : Bool := false
  deriving DecidableEq, Repr, Inhabited

/-- R251: what a TENQ or TFORK has read at its issue: the launch record, its successor entries and its revision table. -/
structure TaskRead where
  lr : Launch := {}
  succ : List W64 := []
  ents : List RevEnt := []
  deriving DecidableEq, Repr, Inhabited

/-- R84: a plain store that has issued and is performed later: the lane that made it (none: the scalar stream), whether an edge of R83 has
joined it to the beam's other stream, and what it stores where. -/
structure LateStore where
  lane : Option Nat := none
  both : Bool := false
  loc : Loc := {}
  data : List Byte := []
  deriving DecidableEq, Repr, Inhabited

/-- R79: everything a beam owns. `uqneed` is the number of entries that a waiting lane word needs (R37); `woken` when the phase
that a parked BOWAIT waits for has come (R184); `hitFor` the ref ticks for which a parked WAITW has held a hit (R166); `due` the slot
that issues next where lit and shade are both ready (R171); `late` the plain stores that have issued and are performed later (R84); `read` what a parked TENQ or TFORK has read (R251). -/
structure Beam where
  exited : Bool := false
  role : Nat := 0
  units : Nat := 0
  part : Nat := 0
  bslot : Nat := 0
  spc : W64 := 0
  s : Tab W64 := []
  uq : List W64 := []
  regions : List Region := []
  running : Bool := false
  w : Tab W64 := []
  p : Tab W32 := []
  v : Tab W32 := []
  ix : Tab W32 := []
  lit : Option LUnit := none
  shade : Option LUnit := none
  frags : Tab LUnit := []
  clears : List Nat := []
  tile : Nat := 32
  watch : List WatchE := []
  overWake : Option Nat := none
  spark : SPark := .none
  fmode : W32 := 0
  seed : W64 := 0
  ctr : W64 := 0
  dead : W32 := 0
  sor : W32 := 0
  retired : W32 := 0
  trapvec : W64 := 0
  tcg : W32 := 0
  tdr0 : W32 := 0
  tdr1 : W32 := 0
  tdr2 : W32 := 0
  tpc : W64 := 0
  tlpc : W64 := 0
  skid : W64 := 0
  preq : BitVec 3 := 0
  uqneed : Nat := 0
  woken : Bool := false
  hitFor : Nat := 0
  due : Nat := 0
  late : List LateStore := []
  read : Option TaskRead := none
  sig : W64 := 0
  lsig : Tab W64 := []
  deriving DecidableEq, Repr, Inhabited

/-- R218: a trap's cause: group, code, bits [31:16] of tdr0, tdr1, tdr2, and `tcg[5]`. -/
structure Cause where
  grp : Nat := 0
  code : Nat := 0
  d0 : Nat := 0
  d1 : W32 := 0
  d2 : W32 := 0
  async : Bool := false
  deriving DecidableEq, Repr, Inhabited

/-- R219, R226: a handler in which a trap was raised, as a debugger's resume goes back to it: its beam, the cause and unit of its own trap,
and where that beam returns to. -/
structure Nested where
  beam : Nat := 0
  cause : Option Cause := none
  unit : Option Nat := none
  tpc : W64 := 0
  tlpc : W64 := 0
  deriving DecidableEq, Repr, Inhabited

/-- R215, R226, R245: how far a block's stop has gone. -/
inductive HaltStage where
  /-- signalled: skid words may still issue -/
  | signalled
  /-- the handler runs -/
  | handler
  /-- stopped for the debugger -/
  | debug
  /-- a mirrored block waits for its partner's trap -/
  | partner
  /-- to be terminated: a handler executed TEXIT, or a trap was raised while it ran (R219) -/
  | ending
  /-- complete, with the handler not started: the block is being saved (R222) -/
  | stopped
  deriving DecidableEq, Repr, Inhabited

/-- R215: a block halt: the beam whose trap it is, its cause (none for a stop without a trap), the lane unit that
trapped, the stage, when it began, whether the debugger has frozen the engines, and where the handler's beam stood; `quiet`
when a SHUTTER stops the block in this halt, the scalar instructions that its handler may still issue and when it did so (R222), and the handler
that the trap was raised in (R219). -/
structure Halt where
  beam : Nat := 0
  cause : Option Cause := none
  unit : Option Nat := none
  stage : HaltStage := .signalled
  since : Nat := 0
  frozen : Bool := false
  spc : W64 := 0
  spark : SPark := .none
  quiet : Bool := false
  left : Nat := 8
  shut : Nat := 0
  nested : Option Nested := none
  deriving DecidableEq, Repr, Inhabited

/-- R188: a shape record as read. -/
structure Shape where
  base : W64 := 0
  rank : Nat := 0
  fmt : Nat := 0
  layout : Nat := 0
  slayout : Nat := 0
  extent : List Nat := []
  stride : List Nat := []
  box : List Nat := []
  sbase : W64 := 0
  sstride : Nat := 0
  glist : Nat := 0
  gcount : Nat := 0
  deriving DecidableEq, Repr, Inhabited

/-- R193: the three kinds of stream-engine entry. -/
inductive SeKind where
  | load | store | gather | fence
  deriving DecidableEq, Repr, Inhabited

/-- R199: a unit of a row that an entry stores, which has passed every check: where it goes, the address it is made for, and its bytes. -/
structure RowUnit where
  loc : Loc := {}
  va : W64 := 0
  data : List Byte := []
  deriving DecidableEq, Repr, Inhabited

/-- R194 to R199: a stream-engine entry. `id` orders the entries by enqueue; a fence keeps its queue mask; of the row it moves, `got` holds
the 8-byte units that have been read, `put` counts those that have been written to scratch (R21), and `out` are the units still to be stored of
a row whose every unit has been checked (R199). -/
structure SEntry where
  kind : SeKind := .load
  id : Nat := 0
  blk : Nat := 0
  beam : Nat := 0
  lane : Nat := 0
  shape : Shape := {}
  crd : List Int := []
  index : List Int := []
  dst : Nat := 0
  bo : Nat := 0
  hasBo : Bool := true
  mask : Nat := 0
  prog : Nat := 0
  got : Tab Nat := []
  put : Nat := 0
  out : List RowUnit := []
  started : Bool := false
  done : Bool := false
  stall : Option Nat := none
  deriving DecidableEq, Repr, Inhabited

/-- R202: the kinds of quadrant entry. -/
inductive QKind where
  | mlds | mflip | mstr | mdrain | mzero | mfuse
  deriving DecidableEq, Repr, Inhabited

/-- R202 to R208: a quadrant entry. -/
structure QEntry where
  kind : QKind := .mzero
  id : Nat := 0
  blk : Nat := 0
  beam : Nat := 0
  lane : Nat := 0
  fmt : Nat := 0
  sc : Bool := false
  acc : Bool := false
  int : Bool := false
  rel : Bool := false
  tile : Nat := 0
  off : Nat := 0
  size : Nat := 0
  soff : Nat := 0
  bo : Nat := 0
  mask : Nat := 0
  row : Nat := 0
  started : Bool := false
  done : Bool := false
  deriving DecidableEq, Repr, Inhabited

/-- R200: a weight plane: element codes by 2048 n + k, scale records by 256 n + g. -/
structure Plane where
  loaded : Bool := false
  fmt : Nat := 0
  k : Nat := 0
  scaled : Bool := false
  el : Tab (BitVec 16) := []
  sc : Tab (BitVec 16) := []
  poisoned : Bool := false
  deriving DecidableEq, Repr, Inhabited

/-- R239: one unit of a store gate: 8 bytes at a location, those written, and what the dirty log needs at the commit: the
stage-2 page and the agent (R272). -/
structure GateUnit where
  loc : Loc := {}
  data : List (Option Byte) := []
  page : Option (Nat × Nat × Nat) := none
  agent : Nat := 0
  deriving DecidableEq, Repr, Inhabited

/-- R238 to R246: a mirrored block's own state. -/
structure Mirror where
  partner : Nat := 0
  primary : Bool := true
  gate : List GateUnit := []
  mism : Nat := 0
  rerun : Bool := false
  qsig : Tab W64 := []
  deriving DecidableEq, Repr, Inhabited

/-- R225: what a save adds to a block: its engine and quadrant entries, planes, fusion mask, spilled tiles (R211) with
their live bits, and whether a store has altered the image. -/
structure Image where
  se : List (Nat × SEntry) := []
  quad : List QEntry := []
  active : Plane := {}
  shadow : Plane := {}
  fuse : Nat := 0
  spill : Tab W32 := []
  spilled : List Nat := []
  altered : Bool := false
  deriving DecidableEq, Repr, Inhabited

/-- The block (R172, R175, R183, R215, R238, R335). `heldSe` are the queues, and `heldQuad` the quadrant entry, whose abort holds
the block's later entries (R199, R210); `freeze` whether a debugger's break that waits for a halt to end freezes the engines, and `stepping` the
beam, the request and the stream (lane or scalar) of a single step under way (R226). -/
structure Block where
  task : Nat := 0
  index : Nat := 0
  launch : W64 := 0
  core : Nat := 0
  seq : Nat := 0
  resident : Bool := true
  ended : Bool := false
  beams : Tab Beam := []
  regg : Nat := 0
  scrg : Nat := 0
  accg : Nat := 0
  accBase : Nat := 0
  scratch : Memory := {}
  prbase : W64 := 0
  prsize : Nat := 0
  halt : Option Halt := none
  causes : List (Nat × Cause) := []
  trig : Bool := false
  heldSe : List Nat := []
  heldQuad : Option Nat := none
  freeze : Bool := false
  stepping : Option (Nat × Nat × Bool) := none
  mirror : Option Mirror := none
  img : Image := {}
  deriving DecidableEq, Repr, Inhabited

/-- R185: a barrier-object update that the core has accepted and not yet performed. -/
inductive BoOp where
  | init (x : Nat) | arrive | expect (y : Int) | deliver (n : Nat)
  deriving DecidableEq, Repr, Inhabited

/-- R185: an accepted update: block, beam that issued it, scratch offset of the object, operation. -/
structure BoUpd where
  blk : Nat := 0
  beam : Nat := 0
  off : Nat := 0
  op : BoOp := .arrive
  deriving DecidableEq, Repr, Inhabited

/-- The core (R90, R172, R194, R200, R208, R212). `accReq` is the context whose first use waits for the firmware (R211),
`acc` and `accPoison` number the words 1024 tile + 32 row + column, `lead` is the mask of a fusion it leads by a word of
block `leadBlk`; `scrubbing` granules wait in the scrub queue (R223); `rechecked` is when its overflowed watches were last
rechecked (R168). Its number c = 96 die + 4 cluster + core. -/
structure Core where
  se : Tab (List SEntry) := []
  quad : List QEntry := []
  active : Plane := {}
  shadow : Plane := {}
  acc : Tab W32 := []
  accPoison : List Nat := []
  accown : Option Nat := none
  accReq : Option Nat := none
  acclive : List Nat := []
  boPend : List BoUpd := []
  lead : Nat := 0
  leadBlk : Nat := 0
  follow : Option Nat := none
  lag : W64 := 0
  withdrawn : Bool := false
  throttle : Nat := 0
  owner : Nat := 0
  scrubbing : Nat := 0
  rechecked : Nat := 0
  deriving DecidableEq, Repr, Inhabited

/-- R260, R261: a forked task's revision: its table, the ancestor and its own bytes by virtual address, the lines of its
reservation and the pages drawn for it; of the join in progress, the block and beam that perform it, the lines merged and the counts so
far (R262). -/
structure Rev where
  ents : List RevEnt := []
  anc : Memory := {}
  mine : Memory := {}
  need : Nat := 0
  pages : List Nat := []
  joiner : Option (Nat × Nat) := none
  merged : Nat := 0
  counts : List Nat := List.replicate 8 0
  deriving DecidableEq, Repr, Inhabited

/-- R249 to R263: a task. `home` is the die whose table holds it, `ready` its place in the order of readiness, `slot` is the queue slot it holds: 0 none, 1 general, 1 + d the reserved slot of depth d. -/
structure Task where
  home : Nat := 0
  ctx : Nat := 0
  tenant : Nat := 0
  lr : Launch := {}
  addr : W64 := 0
  args : W64 := 0
  prog : Nat := 0
  ver : Nat := 0
  starts : Bool := false
  depth : Nat := 0
  forked : Bool := false
  parent : Nat := 0
  kids : List Nat := []
  queue : Nat := 0
  slot : Nat := 0
  count : Nat := 0
  ready : Option Nat := none
  dies : Nat := 0
  die : Option Nat := none
  placed : Nat := 0
  retired : Nat := 0
  killed : Nat := 0
  triggered : Bool := false
  succ : List W64 := []
  ended : Bool := false
  joined : Bool := false
  stopped : Bool := false
  rev : Option Rev := none
  deriving DecidableEq, Repr, Inhabited

/-- R311: a converged tenant, with its dirty log (R272), its revision-store use, whether the log is full and the tail at which its exit was
posted (R274); `parked` the writers that found it full, in order: block, beam and 0 for a scalar store or 1 + u for a word of lane unit u; 2^32,
core and queue for an engine entry, 2^32 + 1 and the child for a merge, 2^32 + 2 and the block for a commit, 2^32 + 3, 32 block + beam and
the record for a clear, 2^32 + 4 and the same for the record that a save writes (R274). -/
structure Tenant where
  recId : Nat := 0
  vm : Nat := 0
  grace : Nat := 0
  revq : Nat := 0
  lbud : Nat := 0
  lquota : Nat := 0
  fmask : W32 := 0
  dlbase : Nat := 0
  dllog2 : Nat := 0
  epoch : Nat := 0
  hvring : Nat := 0
  dlhead : Nat := 0
  noc : W64 := 0
  hard : Nat := 0
  shared : Nat := 0
  slots : Nat := 0
  dlTail : Nat := 0
  dirty : List Nat := []
  full : Bool := false
  fullTail : Nat := 0
  parked : List (Nat × Nat × Nat) := []
  revUsed : Nat := 0
  deriving DecidableEq, Repr, Inhabited

/-- R313: a converged context; `ready` once its save area is allocated (R278), whose first page is `area`. -/
structure Ctx where
  cid : Nat := 0
  tenant : Nat := 0
  nopre : Bool := false
  dbg : Bool := false
  dies : Nat := 0
  savebytes : Nat := 0
  ring : Nat := 0
  area : List Nat := []
  deriving DecidableEq, Repr, Inhabited

/-- R314: a mapping of either stage; `conv` when it is converged; `pages` those allocated for tkind 3, `tables` those of its tables
(R268, R278); `va2` and `len2` the range of a new version that is converging (R309). -/
structure Mapping where
  stage2 : Bool := false
  tenant : Nat := 0
  ctx : Nat := 0
  va : Nat := 0
  pa : Nat := 0
  len : Nat := 0
  psize : Nat := 0
  w : Bool := false
  absent : Bool := false
  tkind : Nat := 0
  node : Nat := 0
  conv : Bool := false
  rebuild : Bool := false
  pages : List Nat := []
  tables : List Nat := []
  va2 : Nat := 0
  len2 : Nat := 0
  deriving DecidableEq, Repr, Inhabited

/-- R317, R326: a converged ring. `hv` when its addresses are host-physical; `pend` the records (type, context id, body, time) that
wait for the home of a ring on another package; `fresh` while the first tail word of such a ring is still to be written. -/
structure Ring where
  hv : Bool := false
  tenant : Nat := 0
  base : Nat := 0
  log2 : Nat := 0
  vec : Nat := 0
  ctl : Nat := 0
  tail : Nat := 0
  lost : Nat := 0
  pend : List (Nat × Nat × List Byte × Nat) := []
  fresh : Bool := false
  deriving DecidableEq, Repr, Inhabited

/-- R316: a converged queue. -/
structure Queue where
  tenant : Nat := 0
  ctx : Nat := 0
  cap : Nat := 0
  dies : Nat := 0
  deriving DecidableEq, Repr, Inhabited

/-- R337: one version's code. -/
structure Code where
  scode : List W32 := []
  lcode : List (BitVec 96) := []
  deriving DecidableEq, Repr, Inhabited

/-- R315, R337, R346: a loaded program: its record's fields, its versions, its launch records' entries, and how far
its load has gone (0 being read, 1 copying, 2 loaded, 3 started): `lines` of the object, by address, as read so far (R348), `image` as it stands when loaded, and `writes` the stores still to
do, as (offset in the image, bytes): the copy, then its relocations and launch records. -/
structure Prog where
  lines : Tab (List Byte) := []
  tenant : Nat := 0
  ctx : Nat := 0
  launch : Nat := 0
  args : W64 := 0
  dies : Nat := 0
  stage : Nat := 0
  writes : List (Nat × List Byte) := []
  image : List Byte := []
  imageVa : Nat := 0
  newest : Nat := 0
  versions : Tab Code := []
  entries : List W64 := []
  argAddr : W64 := 0
  launchAddr : W64 := 0
  faulted : Option Nat := none
  succ : List W64 := []
  task : Nat := 0
  deriving DecidableEq, Repr, Inhabited

/-- R287: an object declaration of a filter. -/
structure Decl where
  kind : Nat := 0
  mode : Nat := 0
  shift : Nat := 0
  param : W32 := 0
  deriving DecidableEq, Repr, Inhabited

/-- R287: a Lantern object's contents: words by index, a total or counter; a trigger's times and counts. -/
structure LObj where
  cells : Tab W32 := []
  total : W64 := 0
  armed : Bool := true
  fires : W64 := 0
  suppressed : W64 := 0
  last : W64 := 0
  deriving DecidableEq, Repr, Inhabited

/-- R286, R318: an attached filter. `since` is the number of the window in which it was attached, which counts for nothing; `due` when an
export is owed, with the words charged and the skips of the window it reports (R292). -/
structure Filter where
  tenant : Nat := 0
  die : Nat := 0
  evtype : Nat := 0
  clr : Bool := false
  period : Nat := 0
  exaddr : Nat := 0
  decls : List Decl := []
  words : List W32 := []
  objs : Tab LObj := []
  windows : Nat := 0
  since : Nat := 0
  due : Bool := false
  charge : Nat := 0
  skipped : Nat := 0
  dropBase : W64 := 0
  deriving DecidableEq, Repr, Inhabited

/-- R284: an event as it stands in the intake: its twelve fields. -/
abbrev LEvt := List W32

/-- R283 to R292: one die's Lantern. `run` is the filter that runs, `todo` those still to run on the head event. -/
structure Lantern where
  fifo : List LEvt := []
  evt : LEvt := []
  todo : List Nat := []
  run : Option Nat := none
  g : Tab W32 := []
  wordIx : Nat := 0
  words : Nat := 0
  intook : Bool := false
  drops : Tab W64 := []
  tdrops : Tab W64 := []
  skips : Tab Nat := []
  spent : Tab Nat := []
  window : Nat := 0
  deriving DecidableEq, Repr, Inhabited

/-- R276, R280: a row's corrected errors of the last 24 hours (by time), whether it has been soft-repaired, and whether it
qualifies for repair. -/
structure RowSt where
  row : RowId
  errors : List Nat := []
  repaired : Bool := false
  due : Bool := false
  deriving DecidableEq, Repr

/-- R277: an entry of a scrub queue: a page with its failed verifications, or granules of a core's pool (R223). -/
inductive ScrubEnt where
  | page (p fails : Nat) | granules (core n : Nat)
  deriving DecidableEq, Repr, Inhabited

/-- One die (R256, R275 to R281): clean pages as (first, count) ranges, the scrub queue, the
ids of the records whose allocations wait, in request order (R278), the deferred triggers as (tenant, context, address), the rows that a full list leaves to page retirement, and the RAS
count of its L2 slices and of what it served poisoned (R248, R355). -/
structure Die where
  clean : List (Nat × Nat) := []
  scrubq : List ScrubEnt := []
  retired : List Nat := []
  rows : List RowSt := []
  quiesce : Option (RowId × Nat) := none
  waitq : List Nat := []
  hard : List RowId := []
  retire : List RowId := []
  ras : W64 := 0
  deferred : List (Nat × Nat × W64) := []
  lan : Lantern := {}
  deriving DecidableEq, Repr, Inhabited

/-- R255, R257: the credit held for one launch-record address of a tenant on a die: the contexts whose tasks gave it, oldest first. -/
structure Credit where
  die : Nat := 0
  tenant : Nat := 0
  addr : W64 := 0
  givers : List Nat := []
  deriving DecidableEq, Repr, Inhabited

/-- R299: the accepted root. -/
structure Root where
  areatab : Nat := 0
  nareas : Nat := 0
  markbase : Nat := 0
  nmarks : Nat := 0
  cfbase : Nat := 0
  cflog2 : Nat := 0
  deriving DecidableEq, Repr, Inhabited

/-- R300: an accepted area. -/
structure Area where
  index : Nat := 0
  base : Nat := 0
  tenant : Nat := 0
  count : Nat := 0
  markidx : Nat := 0
  deriving DecidableEq, Repr, Inhabited

/-- R303, R306: one record slot: its mark, the record to apply, the record in force (none: no object), the retries left,
whether a pass must take it, whether it was observed while a version was being applied (R309), whether its area is the
hypervisor's, and what is done with it: 1 tears down, 2 tears down and creates, 3 creates, 4 waits for pages or a peer
(R309), 5 waits for its shootdown (R271), 6 torn down with another (R308), 7 stops before a new version (R310), 8 is loaded
and starts at step 8. `readAt` is when a record found odd was last read (R306), `inflight` the tags of the requests that its shootdown
waits for (R271). -/
structure Slot where
  obsv : Nat := 0
  conv : Nat := 0
  state : Nat := 0
  want : List Byte := []
  inforce : List Byte := []
  todo : Bool := false
  again : Bool := false
  hv : Bool := false
  job : Nat := 0
  retries : Nat := 0
  readAt : Nat := 0
  inflight : List Nat := []
  deriving DecidableEq, Repr, Inhabited

/-- R298 to R309: the Reconciler. Slots by 65536 area + slot; `rooted` once `dsrroot` has been written (R330). -/
structure Recon where
  dsrroot : W64 := 0
  rooted : Bool := false
  root : Option Root := none
  areas : List Area := []
  slots : Tab Slot := []
  cftail : Nat := 0
  cflost : Nat := 0
  due : Bool := false
  lastSweep : Nat := 0
  dropped : Tab Nat := []
  stopping : List Nat := []
  deriving DecidableEq, Repr, Inhabited

/-- R222: a ladder, kept under the id of its CONTEXT record or, for a PROGRAM's stop (R310), of its PROGRAM record: its step
(1 KNOCK, 2 SHUTTER, 3 saved), cause, targeted blocks, when the step began, the SHUTTER deadline, whether a full dirty log
caused it (R274), and the ref ticks of its KNOCK. -/
structure Ladder where
  step : Nat := 0
  cause : StopCause := .migration
  blocks : List Nat := []
  since : Nat := 0
  deadline : Option Nat := none
  dirty : Bool := false
  knock : Nat := 0
  deriving DecidableEq, Repr

/-- R227: the in-field test of one cluster: deferrals, running since, next KNOCK, waiting for a boundary. -/
structure FieldTest where
  deferrals : Nat := 0
  running : Bool := false
  since : Nat := 0
  next : Option Nat := none
  waiting : Bool := false
  deriving DecidableEq, Repr, Inhabited

/-- R358: one peer; `noRoute` is when its last route went (R361). -/
structure Peer where
  state : Nat := 0
  node : Nat := 0
  inc : W64 := 0
  last : Nat := 0
  since : Nat := 0
  noRoute : Option Nat := none
  deriving DecidableEq, Repr, Inhabited

/-- R355: what a request was made for: an access of a stream, of an engine, a watch, a store that a commit released, or a
merge. -/
inductive ReqWho where
  | scalar (blk beam : Nat) | lane (blk beam unit lane : Nat) | engine (core q : Nat) | watch (blk beam : Nat)
  | commit (blk : Nat)
  /-- R263: a merged line of a join, by the child -/
  | merge (kid : Nat)
  /-- R337, R348: the load of a program -/
  | loader (prog : Nat)
  /-- R326: the posting of a record to a ring -/
  | ring (id : Nat)
  /-- R286: the reading of a filter image -/
  | filter (id : Nat)
  /-- R292: the export of a filter -/
  | exportOf (id : Nat)
  /-- a request whose block, beam or program has gone, of a tenant: its answer is awaited and dropped -/
  | gone (tenant : Nat)
  deriving DecidableEq, Repr, Inhabited

/-- R355: an outstanding request, the virtual address it was made for, and its answer once DATA, ACK or ERR has come; for a WATCH, whether a
HIT has come too (R164). -/
structure Req where
  msg : FMsg
  who : ReqWho
  va : Nat := 0
  answer : Option FMsg := none
  hit : Bool := false
  deriving DecidableEq, Repr

/-- R350 to R353: one port's link: expected and next sequence numbers, unacknowledged flits, every flit put on the wire in order, whether a
replay is asked for, partner's and own xoff, and the flits received on each VC that wait to be served. -/
structure Link where
  expect : Nat := 0
  nextSeq : Nat := 0
  acked : Nat := 2047
  unacked : List Flit := []
  tx : List Flit := []
  nak : Bool := false
  xoffIn : BitVec 4 := 0
  xoffOut : BitVec 4 := 0
  rx : Tab (List Flit) := []
  retrains : Nat := 0
  deriving DecidableEq, Repr, Inhabited

/-- R350 to R361: the package's side of the fabric. `reqs` by 65536 node + tag, `tags` the next tag for each node; `kept` by 65536 src + tag;
`regs` the remote registrations: node, line, tag of its WATCH, whether its HIT has been sent; `out` the messages that wait to be sent, `sent`
those put on a link, both in order; `turning` the nodes whose route has changed, with the requests of the old route (R355); `bad` the words of
other packages that a merge has left poisoned, as (node, word) (R161); `watching` the WATCHes of the lines that this package has registered
elsewhere, as (node, line, tag), in the order in which they were sent (R357). -/
structure Fabric where
  node : Option (BitVec 12) := none
  ports : BitVec 16 := 0
  routes : Tab Nat := []
  limit : Nat := 500000000
  peers : Tab Peer := []
  reqs : Tab Req := []
  tags : Tab Nat := []
  kept : Tab FMsg := []
  opened : List (Nat × Nat × Nat) := []
  regs : List (Nat × Nat × Nat × Bool) := []
  dropped : W64 := 0
  links : Tab Link := []
  out : List FMsg := []
  sent : List FMsg := []
  turning : List (Nat × List Nat) := []
  bad : List (Nat × Nat) := []
  watching : List (Nat × Nat × Nat) := []
  inc : W64 := 0
  beat : Nat := 0
  deriving DecidableEq, Repr, Inhabited

/-- R329, R330: the attestation service: the requests answered so far and their responses; the untrusted image. -/
structure Spdm where
  answers : List (Nat × List Byte) := []
  count : Nat := 0
  verified : Bool := true
  deriving DecidableEq, Repr, Inhabited

/-- R226: what a debugger writes: a register of a beam, a position of its streams, a system register, or `n` bytes of memory. -/
inductive DebugWrite where
  | scalar (n : BitVec 5) (x : W64) | lane (n lane : Nat) (x : W32) | uniform (n : Nat) (x : W64) | pred (n : Nat) (mask : W32)
  | index (lane : Nat) (x : W32) | pc (x : W64) | unitPc (unit : Nat) (x : W64) | sys (r : SysReg) (x : W64) | mem (a : W64) (n x : Nat)
  deriving DecidableEq, Repr

/-- What is taken next: the model's own choice between agents (R125, R182). -/
inductive Turn where
  | scalar (blk beam : Nat)
  | lane (blk beam unit : Nat)
  /-- R84, R150: the next word of a lane unit, of whose memory accesses those of some lanes are performed later -/
  | laneLater (blk beam unit : Nat) (lanes : W32)
  /-- R84: the next scalar instruction, whose plain store is performed later -/
  | scalarLater (blk beam : Nat)
  /-- R84: a store of a beam that has issued is performed, by its place in `late` -/
  | perform (blk beam k : Nat)
  /-- R21, R213: the next `n` 8-byte units of the row that a stream-engine queue moves -/
  | rowPart (core q n : Nat)
  | lantern (die : Nat)
  | event (i : Instr)
  /-- R2: the passing of clk, of which 21 make one ref tick -/
  | elapse (clks : Nat)
  /-- R226: a write of the debugger -/
  | debugWrite (blk beam : Nat) (w : DebugWrite)
  /-- R235, R248: an error in an 8-byte word of an L2 slice, by its number: corrected if of a single bit -/
  | l2Error (word : Nat) (single : Bool)
  deriving DecidableEq, Repr

/-- How the word being issued goes on: fall through, stay (parked), PC already set, or trapped. -/
inductive Flow where
  | go | stay | jumped | trapped (c : Cause)
  deriving DecidableEq, Repr, Inhabited

/-- The word being issued: its beam, lane unit (0 lit, 1 shade, 2 + r fragment r), active live lanes (R35), entries
popped for its operand fields, governing `fmode` (R71), slot (0 long, 1 A, 2 B, 3 scalar), die (Lantern words),
for slot B the lane registers as slot A found them (R52), and the lanes (of a scalar instruction bit 0) whose accesses are performed later (R84). -/
structure Cur where
  blk : Nat := 0
  beam : Nat := 0
  unit : Nat := 0
  act : W32 := 0
  uq : Tab W64 := []
  flow : Flow := .go
  fmode : W32 := 0
  slot : Nat := 3
  die : Nat := 0
  old : Option (Tab W32) := none
  later : W32 := 0
  deriving DecidableEq, Repr, Inhabited

/-- Why a step stops with a fault. -/
inductive Fault where
  /-- `step`: the turn at the head of the agenda names a block or beam that does not exist, or one that may not issue
  (exited, not resident, stopped). Safe: no agent of the device issues there. -/
  | noIssuer
  /-- `step`: the fetched word of a Lantern run does not exist. R55 makes every run end at GEND, so no run of an accepted
  filter reaches it. Safe. -/
  | noLanternWord
  deriving DecidableEq, Repr

/-- Why the machine refuses. -/
inductive Refusal where
  /-- An instruction whose meaning is not written yet, by its mnemonic. Safe: nothing is proved of its effect. -/
  | notModelled (mnemonic : String)
  deriving DecidableEq, Repr

/-- The whole machine. -/
structure State where
  mem : Memory
  host : Memory
  blocks : Tab Block
  cores : Tab Core
  dies : Tab Die
  tasks : Tab Task
  tenants : Tab Tenant
  ctxs : Tab Ctx
  maps : Tab Mapping
  rings : Tab Ring
  queues : Tab Queue
  progs : Tab Prog
  filters : Tab Filter
  credits : List Credit
  recon : Recon
  ladders : Tab Ladder
  tests : Tab FieldTest
  ckpts : Tab Block
  fab : Fabric
  spdm : Spdm
  reftime : W64
  clk : W64
  subtick : Nat
  rr : Nat
  msix : List Nat
  cur : Cur
  agenda : List Turn
  free : Nat
  ids : Nat
  resets : Nat
  deriving DecidableEq, Repr

/-- R369: the allocatable 64 KiB pages of one die. -/
def State.pagesPerDie : Nat := 2197265

/-- R330, R369: the first page number of die `d`. -/
def State.diePage (d : Nat) : Nat := d * 0x400000

/-- The machine at the `n`-th package reset (R330): every page of every die clean, nothing converged, nothing placed.
Fields the spec gives no reset value for stand at the values of log entries 4 to 7 (DESIGN CHOICE, but for the PRESUMED 7); the clean
pools are full (log entry 70, DEDUCED). -/
def State.afterReset (n : Nat) : State where
  mem := {}
  host := {}
  blocks := []
  cores := []
  dies := [(0, { clean := [(diePage 0, pagesPerDie)] }), (1, { clean := [(diePage 1, pagesPerDie)] }), (2, { clean := [(diePage 2, pagesPerDie)] }), (3, { clean := [(diePage 3, pagesPerDie)] })]
  tasks := []
  tenants := []
  ctxs := []
  maps := []
  rings := []
  queues := []
  progs := []
  filters := []
  credits := []
  recon := {}
  ladders := []
  tests := []
  ckpts := []
  fab := { inc := Config.incarnation + BitVec.ofNat 64 n }
  spdm := { verified := Config.firmwareVerified n }
  reftime := 0
  clk := 0
  subtick := 0
  rr := 0
  msix := []
  cur := {}
  agenda := []
  free := 0
  ids := 1
  resets := n

/-- R330: the machine right after package reset. -/
def State.reset : State := State.afterReset 0

end Sys2Proof.Machine
end

