-- ==== Sys2Proof/Machine/Tab.lean ====
section
/-! DEFINITION. Operations on number-keyed tables and on memories: the only places that touch their lists. -/

namespace Sys2Proof.Machine

/-- The value at `k`, or `d`. -/
def Tab.get {α : Type} (t : Tab α) (k : Nat) (d : α) : α :=
  match t with
  | [] => d
  | (j, a) :: r => if j = k then a else Tab.get r k d

/-- The value at `k`, if there is one. -/
def Tab.find {α : Type} (t : Tab α) (k : Nat) : Option α :=
  match t with
  | [] => none
  | (j, a) :: r => if j = k then some a else Tab.find r k

/-- Sets the value at `k`, keeping the keys in ascending order. -/
def Tab.put {α : Type} (t : Tab α) (k : Nat) (a : α) : Tab α :=
  match t with
  | [] => [(k, a)]
  | (j, b) :: r => if j = k then (k, a) :: r else if k < j then (k, a) :: (j, b) :: r else (j, b) :: Tab.put r k a

/-- Removes the key. -/
def Tab.del {α : Type} (t : Tab α) (k : Nat) : Tab α := t.filter (fun e => e.1 != k)

/-- Changes the value at `k` if there is one. -/
def Tab.upd {α : Type} (t : Tab α) (k : Nat) (f : α → α) : Tab α := t.map (fun e => if e.1 = k then (e.1, f e.2) else e)

/-- Changes every value. -/
def Tab.mapV {α : Type} (t : Tab α) (f : Nat → α → α) : Tab α := t.map (fun e => (e.1, f e.1 e.2))

/-- The keys in order. -/
def Tab.keys {α : Type} (t : Tab α) : List Nat := t.map (fun e => e.1)

/-- The first entry that satisfies `p`. -/
def Tab.first {α : Type} (t : Tab α) (p : Nat → α → Bool) : Option (Nat × α) := t.find? (fun e => p e.1 e.2)

/-- Number of entries that satisfy `p`. -/
def Tab.count {α : Type} (t : Tab α) (p : Nat → α → Bool) : Nat := (t.filter (fun e => p e.1 e.2)).length

/-- One more than the largest key. -/
def Tab.fresh {α : Type} (t : Tab α) : Nat := t.foldl (fun m e => max m (e.1 + 1)) 0

/-- Replaces element `k` of a list. -/
def setAt {α : Type} (l : List α) (k : Nat) (a : α) : List α := l.set k a

/-- The number with the given little-endian bytes (R6). -/
def ofBytes : List Byte → Nat
  | [] => 0
  | b :: r => b.toNat + 256 * ofBytes r

/-- A little-endian number in `n` bytes of a list from `i`. -/
def numAt (l : List Byte) (i n : Nat) : Nat := ofBytes ((l.drop i).take n)

/-- The `n` little-endian bytes of a number (R6). -/
def toBytes : Nat → Nat → List Byte
  | 0, _ => []
  | n + 1, x => BitVec.ofNat 8 x :: toBytes n (x / 256)

/-- R225: the save that wrote an address, where it reads undefined. -/
def undefAt (l : List (Nat × Nat × Nat)) (a : Nat) : Option Nat :=
  match l with
  | [] => none
  | (x, n, k) :: r => if x ≤ a ∧ a < x + n then some k else undefAt r a

/-- Takes the `n` addresses from `a` out of a list of ranges. -/
def cutUndef (a n : Nat) : List (Nat × Nat × Nat) → List (Nat × Nat × Nat)
  | [] => []
  | (x, m, k) :: r =>
    if a < x + m ∧ x < a + n then
      (if x < a then [(x, a - x, k)] else []) ++ (if a + n < x + m then [(a + n, x + m - (a + n), k)] else []) ++ cutUndef a n r
    else (x, m, k) :: cutUndef a n r

/-- The byte at an address: undefined in a save area (R225), else what is listed there, else 0. -/
def Memory.get (m : Memory) (a : Nat) : Byte :=
  match undefAt m.undef a with
  | some k => Config.savedByte k a
  | none => Tab.get m.cells a 0

/-- Stores one byte; a zero byte is not listed. -/
def Memory.set (m : Memory) (a : Nat) (b : Byte) : Memory :=
  { m with cells := if b = 0 then Tab.del m.cells a else Tab.put (Tab.del m.cells a) a b, undef := cutUndef a 1 m.undef }

/-- The `n` bytes from `a` up. -/
def Memory.bytes (m : Memory) : Nat → Nat → List Byte
  | _, 0 => []
  | a, n + 1 => m.get a :: m.bytes (a + 1) n

/-- The little-endian number in the `n` bytes from `a` up. -/
def Memory.num (m : Memory) (a n : Nat) : Nat := ofBytes (m.bytes a n)

/-- Stores bytes from `a` up. -/
def Memory.put : Memory → Nat → List Byte → Memory
  | m, _, [] => m
  | m, a, b :: r => (m.set a b).put (a + 1) r

/-- Is a range of `n` bytes from `a` in a poisoned unit of `u` bytes (R161). -/
def Memory.bad (m : Memory) (u a n : Nat) : Bool := m.poison.any (fun k => k * u < a + n && a < (k + 1) * u)

/-- R235: the poisoned 8-byte words of the line at `a`. -/
def Memory.badWords (m : Memory) (a : Nat) : List Nat := (List.range 8).filter (fun i => m.bad 8 (a + 8 * i) 8)
/-- The words of a line that are in one of two lists. -/
def orWords (x y : List Nat) : List Nat := (List.range 8).filter (fun i => x.contains i || y.contains i)

/-- R161: a store of `n` bytes at `a` clears the poison of the units it covers wholly. -/
def Memory.heal (m : Memory) (u a n : Nat) : Memory := { m with poison := m.poison.filter (fun k => !(a ≤ k * u && (k + 1) * u ≤ a + n)) }

/-- Adds a number to a rising list. -/
def addRising (k : Nat) : List Nat → List Nat
  | [] => [k]
  | j :: r => if j = k then j :: r else if k < j then k :: j :: r else j :: addRising k r

/-- R275: poisons unit `k`. -/
def Memory.hurt (m : Memory) (k : Nat) : Memory := { m with poison := addRising k m.poison }

/-- R161: poisons every unit of `u` bytes that a range of `n` bytes from `a` touches. -/
def Memory.spoil (m : Memory) (u a n : Nat) : Memory := (List.range ((a % u + n + u - 1) / u)).foldl (fun m i => m.hurt (a / u + i)) m

/-- Drops every listed byte and mark of a range: it reads 0 (R277). -/
def Memory.clear (m : Memory) (u a n : Nat) : Memory :=
  { cells := m.cells.filter (fun c => !(a ≤ c.1 && c.1 < a + n)), poison := m.poison.filter (fun k => !(a < (k + 1) * u && k * u < a + n)), undef := cutUndef a n m.undef }

/-- R225: a save writes a range: it reads undefined. -/
def Memory.blur (m : Memory) (u a n k : Nat) : Memory := { m.clear u a n with undef := (a, n, k) :: cutUndef a n m.undef }

/-- Addresses strictly rise. -/
def rising : List Host.Cell → Bool
  | [] => true
  | c :: r => (match r with | [] => true | e :: _ => decide (c.1 < e.1)) && rising r

/-- Numbers strictly rise. -/
def risingNat : List Nat → Bool
  | [] => true
  | c :: r => (match r with | [] => true | e :: _ => decide (c < e)) && risingNat r

/-- The canonical form: addresses strictly rise, no listed byte is 0, none reads undefined, and the poisoned units strictly rise. -/
def Memory.wf (m : Memory) : Bool := rising m.cells && m.cells.all (fun c => c.2 != 0) && risingNat m.poison && m.cells.all (fun c => undefAt m.undef c.1 == none)

end Sys2Proof.Machine
end

