-- ==== Sys2Proof/Machine/Access.lean ====
section
/-! DEFINITION. The accessors: every read and write of a block, beam, core, die, task or register goes through these. -/

namespace Sys2Proof.Machine.State

/-- Block `b`. -/
def block (s : State) (b : Nat) : Block := s.blocks.get b default
/-- Changes block `b`. -/
def setBlock (b : Nat) (f : Block → Block) (s : State) : State := { s with blocks := s.blocks.put b (f (s.block b)) }
/-- Beam `j` of block `b`. -/
def beamAt (s : State) (b j : Nat) : Beam := (s.block b).beams.get j default
/-- Changes beam `j` of block `b`. -/
def setBeam (b j : Nat) (f : Beam → Beam) (s : State) : State :=
  s.setBlock b (fun k => { k with beams := k.beams.put j (f (k.beams.get j default)) })
/-- Changes every beam of block `b`. -/
def setBeams (b : Nat) (f : Nat → Beam → Beam) (s : State) : State := s.setBlock b (fun k => { k with beams := k.beams.mapV f })
/-- The beam whose word is being issued, and its block. -/
def me (s : State) : Beam := s.beamAt s.cur.blk s.cur.beam
def myBlock (s : State) : Block := s.block s.cur.blk
/-- Changes the issuing beam. -/
def setMe (f : Beam → Beam) (s : State) : State := s.setBeam s.cur.blk s.cur.beam f
/-- Changes the issuing block. -/
def setMyBlock (f : Block → Block) (s : State) : State := s.setBlock s.cur.blk f
/-- Changes what is said of the word being issued. -/
def setCur (f : Cur → Cur) (s : State) : State := { s with cur := f s.cur }
/-- How the word being issued goes on. -/
def flow (s : State) (f : Flow) : State := s.setCur (fun c => { c with flow := f })

def core (s : State) (c : Nat) : Core := s.cores.get c default
def setCore (c : Nat) (f : Core → Core) (s : State) : State := { s with cores := s.cores.put c (f (s.core c)) }
def die (s : State) (d : Nat) : Die := s.dies.get d default
def setDie (d : Nat) (f : Die → Die) (s : State) : State := { s with dies := s.dies.put d (f (s.die d)) }
/-- Pages in the scrub queue of a die (R279). -/
def scrubPages (s : State) (d : Nat) : Nat := ((s.die d).scrubq.filter (fun e => match e with | .page _ _ => true | .granules _ _ => false)).length
/-- R279: the hard-repair list of a stack of a die is full. -/
def hardFull (s : State) (d : Nat) : Bool := [0, 1, 2].any (fun k => 1024 ≤ ((s.die d).hard.filter (fun r => r.stack = k)).length)
def lantern (s : State) (d : Nat) : Lantern := (s.die d).lan
def setLantern (d : Nat) (f : Lantern → Lantern) (s : State) : State := s.setDie d (fun x => { x with lan := f x.lan })
def task (s : State) (t : Nat) : Task := s.tasks.get t default
def setTask (t : Nat) (f : Task → Task) (s : State) : State := { s with tasks := s.tasks.put t (f (s.task t)) }
def tenant (s : State) (t : Nat) : Tenant := s.tenants.get t default
def setTenant (t : Nat) (f : Tenant → Tenant) (s : State) : State := { s with tenants := s.tenants.put t (f (s.tenant t)) }
def slot (s : State) (k : Nat) : Slot := s.recon.slots.get k default
def setSlot (k : Nat) (f : Slot → Slot) (s : State) : State :=
  { s with recon := { s.recon with slots := s.recon.slots.put k (f (s.slot k)) } }
def setFab (f : Fabric → Fabric) (s : State) : State := { s with fab := f s.fab }
def setRecon (f : Recon → Recon) (s : State) : State := { s with recon := f s.recon }
def link (s : State) (p : Nat) : Link := s.fab.links.get p default
def setLink (p : Nat) (f : Link → Link) (s : State) : State :=
  s.setFab (fun x => { x with links := x.links.put p (f (x.links.get p default)) })
def peer (s : State) (n : Nat) : Peer := s.fab.peers.get (n % 64) default
def setPeer (n : Nat) (f : Peer → Peer) (s : State) : State :=
  s.setFab (fun x => { x with peers := x.peers.put (n % 64) (f (x.peers.get (n % 64) default)) })

/-- The reference time as a number of ref ticks (R90). -/
def now (s : State) : Nat := s.reftime.toNat

/-- R90: clk counted by a core since reset: the package's nominal count less what throttling withheld. -/
def cyclesOf (s : State) (c : Nat) : W64 := s.clk - (s.core c).lag

/-- R1: core c = 96 die + 4 cluster + core. -/
def dieOf (c : Nat) : Nat := c / 96
def clusterOf (c : Nat) : Nat := c / 4

/-- The task, context (record id), tenant and core of a block. -/
def taskOf (s : State) (b : Nat) : Task := s.task (s.block b).task
def ctxOf (s : State) (b : Nat) : Nat := (s.taskOf b).ctx
def tenantOf (s : State) (b : Nat) : Nat := (s.taskOf b).tenant
def coreOf (s : State) (b : Nat) : Nat := (s.block b).core
def cidOf (s : State) (ctx : Nat) : Nat := (s.ctxs.get ctx default).cid

/-- A block that is on its core and has not ended. -/
def onCore (s : State) (b : Nat) : Bool :=
  match s.blocks.find b with | some k => k.resident && !k.ended | none => false

/-- R337, R340: the code that the beams of a block run. -/
def codeOf (s : State) (b : Nat) : Code :=
  let t := s.taskOf b
  (s.progs.get t.prog default).versions.get t.ver default

/-- R13, R18: the block of `b`'s cluster group on core `i` of its cluster. A block has exited once it is retired, which follows its last beam's
end (log entry 81, DESIGN CHOICE). -/
def groupBlock (s : State) (b i : Nat) : Option Nat :=
  let k := s.block b
  let c := k.core / 4 * 4 + i
  if k.core = c then some b
  else (s.blocks.first (fun _ x => x.task = k.task && x.core = c && x.resident && !x.ended)).map (fun e => e.1)

/-- A fresh identifier. -/
def fresh (s : State) : Nat × State := (s.ids, { s with ids := s.ids + 1 })

/-- The counter behind a free value, and the state with it advanced (log entry 4, DESIGN CHOICE). -/
def takeFree (s : State) : Nat × State := (s.free, { s with free := s.free + 1 })

/-- R79: scalar register `n`; s0 reads 0. -/
def rs (s : State) (n : BitVec 5) : W64 := if n = 0 then 0 else s.me.s.get n.toNat 0
/-- R79: writes scalar register `n`; a write of s0 is discarded. -/
def ws (n : BitVec 5) (x : W64) (s : State) : State := if n = 0 then s else s.setMe (fun b => { b with s := b.s.put n.toNat x })
/-- R81: the scalar stream goes on at the next word, and is no longer parked. -/
def advance (s : State) : State := s.setMe (fun b => { b with spc := b.spc + 1, spark := .none })
/-- Parks the scalar stream at its instruction. -/
def park (p : SPark) (s : State) : State := s.setMe (fun b => { b with spark := p })

/-- R79, R80: lane register `n` of lane `i`; slot B reads what stood before slot A wrote (R52). -/
def rv (s : State) (n i : Nat) : W32 := (s.cur.old.getD s.me.v).get (32 * n + i) 0
def wv (n i : Nat) (x : W32) (s : State) : State := s.setMe (fun b => { b with v := b.v.put (32 * n + i) x })
/-- R79: `ix` of lane `i`. -/
def rix (s : State) (i : Nat) : W32 := s.me.ix.get i 0
def wix (i : Nat) (x : W32) (s : State) : State := s.setMe (fun b => { b with ix := b.ix.put i x })
/-- R79: beam-uniform register `n`. -/
def rw (s : State) (n : Nat) : W64 := s.me.w.get n 0
def ww (n : Nat) (x : W64) (s : State) : State := s.setMe (fun b => { b with w := b.w.put n x })
/-- R79: predicate `n` as a mask of lanes; p7 reads 1 in every lane. -/
def rp (s : State) (n : Nat) : W32 := if n = 7 then BitVec.allOnes 32 else s.me.p.get n 0
/-- Writes predicate `n` in one lane; p7 is written by nothing. -/
def wp (n i : Nat) (x : Bool) (s : State) : State :=
  if n = 7 then s
  else s.setMe (fun b => { b with p := b.p.put n (let o := b.p.get n 0; if x then o ||| BitVec.ofNat 32 (2 ^ i) else o &&& ~~~(BitVec.ofNat 32 (2 ^ i))) })

end Sys2Proof.Machine.State

namespace Sys2Proof.Machine

/-- A mask with the bit of lane `i` alone. -/
def laneBit (i : Nat) : W32 := BitVec.ofNat 32 (2 ^ i)
/-- The lanes of a mask in ascending logical order. -/
def lanesOf (m : W32) : List Nat := (List.range 32).filter (fun i => m.getLsbD i)
/-- The mask of the lanes that satisfy `p`. -/
def maskOf (p : Nat → Bool) : W32 := BitVec.ofNat 32 ((List.range 32).foldl (fun n i => if p i then n + 2 ^ i else n) 0)
/-- Number of set bits. -/
def popc (m : W32) : Nat := (lanesOf m).length

/-- R173, R175: units of all beams of a block that have not exited. -/
def Block.used (k : Block) : Nat := k.beams.foldl (fun n e => if e.2.exited then n else n + e.2.units) 0
/-- R175: the register reserve. -/
def Block.reserve (k : Block) : Nat := 16 * k.regg - k.used
/-- The beams that have not exited. -/
def Block.liveBeams (k : Block) : List Nat := (k.beams.filter (fun e => !e.2.exited)).map (fun e => e.1)
/-- Bytes of the scratch allocation (R17). -/
def Block.scratchSize (k : Block) : Nat := k.scrg * 16384

namespace Beam
/-- A unit of the beam: 0 lit, 1 shade, 2 + r fragment record r. -/
def unit (b : Beam) (u : Nat) : Option LUnit := if u = 0 then b.lit else if u = 1 then b.shade else b.frags.find (u - 2)
/-- Replaces or removes a unit. -/
def setUnit (u : Nat) (x : Option LUnit) (b : Beam) : Beam :=
  if u = 0 then { b with lit := x } else if u = 1 then { b with shade := x }
  else match x with
    | some y => { b with frags := b.frags.put (u - 2) y }
    | none => { b with frags := b.frags.del (u - 2) }
/-- The numbers of the units that hold lanes. -/
def unitIds (b : Beam) : List Nat :=
  (if b.lit.isSome then [0] else []) ++ (if b.shade.isSome then [1] else []) ++ b.frags.keys.map (· + 2)
/-- R124: the lane stream is converged. -/
def converged (b : Beam) : Bool := b.shade.isNone && b.frags.isEmpty
/-- R82: every region that was started has ended. -/
def regionsDone (b : Beam) : Bool := b.regions.isEmpty
/-- R124: live lanes of a mask. -/
def live (b : Beam) (m : W32) : W32 := m &&& ~~~b.dead
/-- R216: running its handler (`tcg[7]`). -/
def inHandler (b : Beam) : Bool := b.tcg.getLsbD 7
/-- Bits [31:0] of the line address of a watch entry. -/
def watchVa (b : Beam) (k : Nat) : W32 := match b.watch[k]? with | some e => e.va.setWidth 32 | none => 0
/-- The lane registers of the allotment (R80). -/
def regCount (b : Beam) : Nat := 8 * b.units
end Beam

end Sys2Proof.Machine
end

