-- ==== Sys2Proof/Machine/Wire.lean ====
section
/-! DEFINITION. What leaves the machine's agents: Lantern taps (R283, R284), and the messages of the fabric with their flits (R350 to
R355). -/

namespace Sys2Proof.Machine

/-- R283: a dropped event is counted for its type and for its tenant. -/
def Lantern.drop (code tid : Nat) (l : Lantern) : Lantern :=
  { l with drops := l.drops.put code (l.drops.get code 0 + 1), tdrops := l.tdrops.put tid (l.tdrops.get tid 0 + 1) }

/-- The answer to a remote request (R355). -/
inductive Rem where
  | wait (s : State)
  | ok (bs : List Byte) (poison : Bool)
  | err (reason : Nat)
  deriving Repr

/-- R355: the answer to a request, once it has come. -/
def Req.outcome (r : Req) (s : State) : Rem :=
  match r.answer with
  | none => .wait s
  | some a => if a.op = 10 then .err (ofBytes (a.data.take 1)) else .ok a.data a.poison

/-! ### Messages and flits as bytes -/

/-- R351: a message's bytes: its header, then its payload. -/
def fmsgBytes (m : FMsg) : List Byte :=
  toBytes 1 (m.op.toNat + 16 * m.aop.toNat) ++ toBytes 1 m.size.toNat ++ toBytes 2 m.dst.toNat ++ toBytes 2 m.src.toNat ++ toBytes 2 m.tag.toNat
    ++ toBytes 8 (m.addr.toNat + (if m.poison then 2 ^ 52 else 0)) ++ m.data

/-- R351: the message of a head flit's bytes and those of the data flits after it. A READ and a WATCH carry no payload. -/
def fmsgOfBytes (w : List Byte) : FMsg :=
  let op := numAt w 0 1 % 16
  let n := if op = 1 || op = 6 then 0 else if op = 10 then 1 else numAt w 1 1
  { op := BitVec.ofNat 4 op, aop := BitVec.ofNat 4 (numAt w 0 1 / 16), size := BitVec.ofNat 8 (numAt w 1 1), dst := BitVec.ofNat 12 (numAt w 2 2)
    src := BitVec.ofNat 12 (numAt w 4 2), tag := BitVec.ofNat 16 (numAt w 6 2), addr := BitVec.ofNat 52 (numAt w 8 8)
    poison := numAt w 8 8 / 2 ^ 52 % 2 = 1, reserved := 4096 ≤ numAt w 2 2 || 4096 ≤ numAt w 4 2 || 2 ^ 53 ≤ numAt w 8 8, data := (w.drop 16).take n }

/-- R350: CRC-32 of IEEE 802.3, one bit at a time, least significant first. -/
def crc32Bits : Nat → BitVec 32 → BitVec 32
  | 0, c => c
  | n + 1, c => crc32Bits n (if c.getLsbD 0 then (c >>> 1) ^^^ 0xEDB88320#32 else c >>> 1)
def crc32 (bs : List Byte) : BitVec 32 := bs.foldl (fun c b => crc32Bits 8 (c ^^^ b.setWidth 32)) 0xFFFFFFFF#32 ^^^ 0xFFFFFFFF#32

/-- R350: the 32 bits at byte 56. -/
def flitWord (f : Flit) : Nat :=
  f.lseq.toNat + 2 ^ 11 * f.vc.toNat + (if f.head then 2 ^ 13 else 0) + (if f.idle then 2 ^ 14 else 0) + (if f.nak then 2 ^ 15 else 0)
    + 2 ^ 16 * f.ack.toNat + 2 ^ 27 * f.xoff.toNat + (if f.rsv then 2 ^ 31 else 0)
/-- R350: the 56 bytes of a body that may be shorter. -/
def flitBody (bs : List Byte) : List Byte := bs.take 56 ++ List.replicate (56 - bs.length) 0
/-- R350: bytes 0 to 59 of a flit. -/
def flitBytes (f : Flit) : List Byte := flitBody f.body ++ toBytes 4 (flitWord f)
/-- R350: is its CRC good. -/
def crcGood (f : Flit) : Bool := f.crc == crc32 (flitBytes f)

/-- R350, R351: flits of a message: its 16-byte header and its payload, 56 bytes a flit. -/
def flitsOf (m : FMsg) : Nat := (16 + m.data.length + 55) / 56
/-- The bodies of a message's flits. -/
def flitBodies : Nat → List Byte → List (List Byte)
  | 0, _ => []
  | n + 1, bs => flitBody bs :: flitBodies n (bs.drop 56)

/-- R352: the channel of a message. -/
def channelOf (op : Nat) : Nat := if op ≤ 3 then 0 else if op = 4 || op = 5 || op = 10 then 1 else 2
/-- R355: is a message a request. -/
def isRequest (op : Nat) : Bool := [1, 2, 3, 6].contains op

namespace Link
/-- R350, R352, R353: a flit as the link sends it now: with its ack, nak and xoff bits, and its CRC. -/
def stamp (l : Link) (f : Flit) : Flit :=
  let f := { f with nak := l.nak, ack := BitVec.ofNat 11 l.acked, xoff := l.xoffOut, rsv := false }
  { f with crc := crc32 (flitBytes f) }
/-- R353: a flit of a message is sent, and kept until it is acknowledged. -/
def putFlit (v : Nat) (head : Bool) (body : List Byte) (l : Link) : Link :=
  let f := l.stamp { body := body, lseq := BitVec.ofNat 11 l.nextSeq, vc := BitVec.ofNat 2 v, head := head, idle := false, nak := false, ack := 0, xoff := 0, rsv := false, crc := 0 }
  { l with nextSeq := (l.nextSeq + 1) % 2048, unacked := l.unacked ++ [f], tx := l.tx ++ [f] }
/-- The flits of a message, back to back (R350). -/
def putFlits (v : Nat) (bs : List (List Byte)) (l : Link) : Link := bs.zipIdx.foldl (fun l e => l.putFlit v (e.2 = 0) e.1) l
/-- R352: an idle flit carries what the link has to say when it has nothing to send. -/
def sendIdle (l : Link) : Link :=
  { l with tx := l.tx ++ [l.stamp { body := flitBody [], lseq := 0, vc := 0, head := false, idle := true, nak := false, ack := 0, xoff := 0, rsv := false, crc := 0 }] }
/-- R353: every flit that is not acknowledged is sent again, in order. -/
def replay (l : Link) : Link :=
  let fs := l.unacked.map l.stamp
  { l with unacked := fs, tx := l.tx ++ fs }
end Link

namespace State

/-! ### Lantern taps -/

/-- R283: offers an event to a die's Lantern intake; `e` are its twelve fields (log entry 54, DESIGN CHOICE). -/
def offer (d : Nat) (e : LEvt) (s : State) : State :=
  let code := ((e[0]?).getD 0).toNat
  let tid := ((e[4]?).getD 0).toNat
  if s.filters.any (fun f => f.2.die = d && f.2.evtype = code && (f.2.tenant = 0 || f.2.tenant = tid)) then
    s.setLantern d (fun l =>
      if l.fifo.length < 256 then { l with fifo := l.fifo ++ [e] }
      else l.drop code tid)
  else s

/-- R284: an event of a beam. -/
def tapBeam (b j code : Nat) (f8 f9 f10 f11 : W32) (s : State) : State :=
  let c := s.coreOf b
  let n := BitVec.ofNat 32
  s.offer (dieOf c) [n code, s.reftime.setWidth 32, (s.reftime >>> 32).setWidth 32, n (s.cidOf (s.ctxOf b)), n (s.tenantOf b),
    n (c % 96 + 128 * j + 4096 * (s.beamAt b j).part), (s.cyclesOf c).setWidth 32, n (code % 4), f8, f9, f10, f11]

/-- R284: an event of a beam whose field 9 is a count of clk (log entry 14, DESIGN CHOICE). -/
def tapClk9 (b j code : Nat) (f8 : W32) (s : State) : State :=
  let f := s.takeFree
  f.2.tapBeam b j code f8 (Config.tapClk f.1) 0 0

/-- R284: a page fault of a beam at an address. -/
def tapFault (b j addr : Nat) (s : State) : State :=
  let f := s.takeFree
  f.2.tapBeam b j 0x2E (BitVec.ofNat 32 addr) (BitVec.ofNat 32 (addr / 2 ^ 32 % 2 ^ 25)) (Config.walkReads f.1) 0

/-- R284: an event of the lanes family: PC, mask and token of the unit, and `fragn`. -/
def tapLanes (b j code : Nat) (y : LUnit) (s : State) : State :=
  s.tapBeam b j code (y.pc.setWidth 32) y.mask (y.token.setWidth 32) (BitVec.ofNat 32 (s.beamAt b j).frags.length)

/-- R284: an event of an agent that is not a beam, for a context (0 none) (log entry 27, DESIGN CHOICE). -/
def tapDev (d ctx tenant code : Nat) (f8 f9 f10 f11 : W32) (s : State) : State :=
  let n := BitVec.ofNat 32
  let fs := s.takeFree
  fs.2.offer d [n code, s.reftime.setWidth 32, (s.reftime >>> 32).setWidth 32, n (s.cidOf ctx), n tenant, 0, Config.nocCycles fs.1, n (code % 4), f8, f9, f10, f11]

/-! ### Sending -/

/-- R351: a message of this package. -/
def message (s : State) (op aop size node tag addr : Nat) (data : List Byte) : FMsg :=
  { op := BitVec.ofNat 4 op, aop := BitVec.ofNat 4 aop, size := BitVec.ofNat 8 size, dst := BitVec.ofNat 12 node, src := s.fab.node.getD 0, tag := BitVec.ofNat 16 tag, addr := BitVec.ofNat 52 addr, poison := false, reserved := false, data := data }

/-- R355: the unanswered requests to a node, by their keys. -/
def unansweredTo (s : State) (node : Nat) : List Nat := (s.fab.reqs.filter (fun e => e.2.msg.dst.toNat = node && e.2.answer.isNone)).map (fun e => e.1)

/-- R355: the key of a request of this package. -/
def reqKey (m : FMsg) : Nat := 65536 * m.dst.toNat + m.tag.toNat

/-- R355, R358: is a message held: a request, an UNWATCH or a HIT to a node that is RECOVERING, and a new request to a node whose route has
changed while old ones are unanswered. -/
def outHeld (s : State) (m : FMsg) : Bool :=
  let op := m.op.toNat
  ((isRequest op || op = 7 || op = 8) && (s.peer m.dst.toNat).state = 2)
    || (isRequest op && s.fab.turning.any (fun t => t.1 = m.dst.toNat && !t.2.contains (reqKey m)))

/-- R352, R353: may a message of `n` flits start on a channel of a port: trained, not stopped, with at most 1,024 flits unacknowledged. -/
def linkReady (s : State) (p v n : Nat) : Bool :=
  s.fab.ports.getLsbD p && !((s.link p).xoffIn.getLsbD v) && (s.link p).unacked.length + n ≤ 1024

/-- R353: a message starts on a port's channel. -/
def transmit (p v : Nat) (m : FMsg) (s : State) : State :=
  let s := (s.setFab (fun f => { f with sent := f.sent ++ [m] })).setLink p (fun l => l.putFlits v (flitBodies (flitsOf m) (fmsgBytes m)))
  (List.range (flitsOf m)).foldl (fun s _ => s.tapDev 0 0 0 0x38 (BitVec.ofNat 32 p) (m.dst.setWidth 32) (BitVec.ofNat 32 v) 0) s

/-- R352: the waiting messages in order: each is sent that may start; one that its link stops holds back those behind it on its channel,
and no other. -/
def pumpList : List FMsg → List (Nat × Nat) → State → State
  | [], _, s => s
  | m :: r, shut, s =>
    let wait (s : State) : State := s.setFab (fun f => { f with out := f.out ++ [m] })
    if s.outHeld m then pumpList r shut (wait s)
    else
      match s.fab.routes.find m.dst.toNat with
      | none => pumpList r shut (wait s)
      | some p =>
        let v := channelOf m.op.toNat
        if shut.contains (p, v) || !s.linkReady p v (flitsOf m) then pumpList r ((p, v) :: shut) (wait s) else pumpList r shut (s.transmit p v m)

/-- Sends what can be sent. -/
def pump (s : State) : State :=
  let s := s.setFab (fun f => { f with turning := f.turning.filter (fun t => t.2.any (s.unansweredTo t.1).contains) })
  pumpList s.fab.out [] (s.setFab (fun f => { f with out := [] }))

/-- R354: sends a message; none crosses the boundary of the domain. -/
def send (m : FMsg) (s : State) : State :=
  if m.dst.toNat / 64 = (s.fab.node.getD 0).toNat / 64 then (s.setFab (fun f => { f with out := f.out ++ [m] })).pump else s

/-- R355, R358: the unanswered requests that satisfy `p` are sent again, with their tags, before what waits, and before them the messages
without an answer that a link has lost. -/
def resend (p : FMsg → Bool) (s : State) (lost : List FMsg := []) : State :=
  (s.setFab (fun f => { f with out := lost ++ (f.reqs.filter (fun e => e.2.answer.isNone && p e.2.msg && !(f.out.contains e.2.msg))).map (fun e => e.2.msg) ++ f.out })).pump

/-- R355: the bytes that a request names. -/
def askSize (n : Nat) (data : List Byte) : Nat := if data.isEmpty then n else data.length

/-- R161: the words of another package that a merge has left poisoned and a write of `n` bytes does not cover. -/
def badAfter (f : Fabric) (node addr n : Nat) : List (Nat × Nat) := f.bad.filter (fun w => !(w.1 = node && addr ≤ 8 * w.2 && 8 * w.2 + 8 ≤ addr + n))
/-- Does a range meet such a word. -/
def meetsBad (f : Fabric) (node addr n : Nat) : Bool := f.bad.any (fun w => w.1 = node && addr < 8 * w.2 + 8 && 8 * w.2 < addr + n)

/-- R357: the tag after `t` that no registered WATCH to a node carries: its HIT is not taken for another's. -/
def freeTag (w : List (Nat × Nat × Nat)) (node : Nat) : Nat → Nat → Nat
  | 0, t => t
  | k + 1, t => if w.any (fun e => e.1 = node && e.2.2 = t) then freeTag w node k ((t + 1) % 65536) else t

/-- R357: a WATCH of a line is sent. -/
def noteWatch (op node line tag : Nat) (w : List (Nat × Nat × Nat)) : List (Nat × Nat × Nat) :=
  if op = 6 then w.filter (fun e => !(e.1 = node && e.2.2 = tag)) ++ [(node, line, tag)] else w

/-- R164, R357: the tags of the WATCHes of a line that the HIT of one of them reaches: its own, and those of the registrations that it replaced. -/
def hitReach (w : List (Nat × Nat × Nat)) (node line tag : Nat) : List Nat :=
  let mine := (w.filter (fun e => e.1 = node && e.2.1 = line)).map (fun e => e.2.2)
  if mine.contains tag then mine.takeWhile (· != tag) ++ [tag] else []

/-- R355: the request of `who` for one access, made for a virtual address: its answer if it has come, else parked, sent first if it is
new. A tag is used again once its last request has been answered. -/
def remote (who : ReqWho) (op aop node addr n : Nat) (data : List Byte) (s : State) (va : Nat := 0) : Rem :=
  match s.fab.reqs.first (fun _ r => r.who == who && r.msg.op.toNat == op && r.msg.dst.toNat == node && r.msg.addr.toNat == addr && r.msg.size.toNat == askSize n data && r.va == va) with
  | some (_, r) => r.outcome s
  | none =>
    let tag := freeTag s.fab.watching node s.fab.watching.length (s.fab.tags.get node 0)
    if op ≠ 2 && meetsBad s.fab node addr n then .ok (List.replicate n 0) true
    else if (s.fab.reqs.find (65536 * node + tag)).isSome then .wait s
    else
      let m := s.message op aop (askSize n data) node tag addr data
      .wait ((s.setFab (fun f => { f with
        reqs := f.reqs.put (65536 * node + tag) { msg := m, who := who, va := va }
        tags := f.tags.put node ((tag + 1) % 65536)
        watching := noteWatch op node (addr / 64 * 64) tag f.watching
        bad := if op = 2 then badAfter f node addr (askSize n data) else f.bad })).send m)

/-- R158, R199: asks a home whether an access would be let in, with a READ of its bytes whose data nobody takes (log entry 76, DESIGN CHOICE). -/
def probe (who : ReqWho) (node addr n va : Nat) (s : State) : Rem := s.remote who 1 0 node addr n [] (2 ^ 64 + va)

/-- R271, R355: what became of the request that `who` has made for an access at a virtual address. It goes where it went, whatever its
translation has become since. -/
def asked (s : State) (who : ReqWho) (op va n : Nat) : Option (Loc × Rem) :=
  (s.fab.reqs.first (fun _ r => r.who == who && r.msg.op.toNat == op && r.va = va && r.msg.size.toNat == n)).map
    (fun e => ({ sp := .remote e.2.msg.dst.toNat, addr := e.2.msg.addr.toNat }, e.2.outcome s))

end State
end Sys2Proof.Machine
end

