-- ==== Sys2Proof/Machine/Mem.lean ====
section
/-! DEFINITION. Memory by location: reads, writes with watch hits (R164), store gates (R239), the capability page. -/

namespace Sys2Proof.Machine

/-- R161, R235, R275: the unit of poison, in bytes: an 8-byte word of L2, through whose slices every access to HBM goes, all eight of
an HBM unit that is read poisoned; the same in the SRAM pool (log entry 13, PRESUMED there). -/
def Space.eccUnit : Space → Nat
  | _ => 8

/-- The 64-byte line of a location (R163). -/
def Loc.line (l : Loc) : Loc := { l with addr := l.addr / 64 * 64 }

/-- R323, R324: the capability list without the features of a mask: entries of 16 bytes, the first with its payload. -/
def capEntry (id len next : Nat) (payload : List Byte) : List Byte :=
  toBytes 2 id ++ toBytes 2 1 ++ toBytes 4 len ++ toBytes 8 next ++ payload
/-- R324: two bits per partition. -/
def partPayload : List Byte :=
  (List.range 384).map (fun k => BitVec.ofNat 8 ((List.range 4).foldl (fun n j => n + Config.passes (4 * k + j) * 4 ^ j) 0))
def capChain (at_ : Nat) : List Nat → List Byte
  | [] => []
  | [i] => capEntry i 0 0 []
  | i :: r => capEntry i 0 (at_ + 16) [] ++ capChain (at_ + 16) r
/-- R323: the list of a tenant with feature mask `fmask`; 0 gives the package's full list. -/
def capList (fmask : W32) : List Byte :=
  let ids := (List.range 6).filterMap (fun k => if fmask.getLsbD k then none else some (0x10 + k))
  capEntry 1 384 (if ids.isEmpty then 0 else 400) partPayload ++ capChain 400 ids

/-- The runs of written bytes of an 8-byte unit, as (offset, bytes). -/
def unitRuns (data : List (Option Byte)) : List (Nat × List Byte) :=
  data.zipIdx.foldr (fun e acc =>
    match e.1 with
    | none => acc
    | some x =>
      match acc with
      | (k, bs) :: r => if k = e.2 + 1 then (e.2, x :: bs) :: r else (e.2, [x]) :: acc
      | [] => [(e.2, [x])]) []

namespace State

/-- The memory that holds a space's bytes; the capability page and remote packages have none here. -/
def memOf (s : State) : Space → Memory
  | .scratch b => (s.block b).scratch
  | .phys => s.mem
  | .host => s.host
  | .rev t => match (s.task t).rev with | some r => r.mine | none => {}
  | .remote _ => {}
  | .cap _ => {}

/-- Replaces the memory of a space. -/
def setMem (sp : Space) (m : Memory) (s : State) : State :=
  match sp with
  | .scratch b => s.setBlock b (fun k => { k with scratch := m })
  | .phys => { s with mem := m }
  | .host => { s with host := m }
  | .rev t => s.setTask t (fun k => { k with rev := k.rev.map (fun r => { r with mine := m }) })
  | .remote _ => s
  | .cap _ => s

/-- The bytes at a location as its home holds them. -/
def peek (s : State) (l : Loc) (n : Nat) : List Byte :=
  match l.sp with
  | .cap t => (capList (s.tenant t).fmask ++ List.replicate 65536 0).drop l.addr |>.take n
  | sp => (s.memOf sp).bytes l.addr n

/-- R161: does an access of `n` bytes meet a poisoned unit. -/
def poisonedAt (s : State) (l : Loc) (n : Nat) : Bool := (s.memOf l.sp).bad l.sp.eccUnit l.addr n

/-- R164, R168: a store to a line raises a hit on every watch of it that it reaches: those with some tags, or all (none). An overflowed entry is
only signalled. -/
def hitBeam (tags : Option (List Nat)) (l : Loc) (b : Beam) : Beam :=
  { b with watch := b.watch.map (fun e => if e.loc = l && (match tags with | some ts => ts.contains e.tag | none => true) then (if e.ovf then { e with signalled := true } else { e with hit := true }) else e) }
/-- The watches of a checkpoint take hits too: a block restored from it has missed no store (R164, R244). -/
def hitTagged (tags : Option (List Nat)) (l : Loc) (s : State) : State :=
  { s with
    blocks := s.blocks.mapV (fun _ k => { k with beams := k.beams.mapV (fun _ b => hitBeam tags l.line b) })
    ckpts := s.ckpts.mapV (fun _ k => { k with beams := k.beams.mapV (fun _ b => hitBeam tags l.line b) }) }
/-- A store of this package, or of the host. -/
def hit (l : Loc) (s : State) : State := s.hitTagged none l

/-- R184: a store that changes the phase bit of a barrier object wakes every BOWAIT that the new phase satisfies. -/
def wakeBo (sp : Space) (s : State) : State :=
  match sp with
  | .scratch b => s.setBeams b (fun _ x => match x.spark with
    | .bowait off ph => if ((s.block b).scratch.get (off + 3)).getLsbD 7 != ph then { x with woken := true } else x
    | _ => x)
  | _ => s

/-- R357: the first store to a remotely watched line sends one HIT, with the tag of its WATCH (log entry 51, DESIGN CHOICE). -/
def sendHits (l : Loc) (s : State) : State :=
  if l.sp = .phys then
    let line := l.addr / 64 * 64
    let due := s.fab.regs.filter (fun r => r.2.1 = line && !r.2.2.2)
    due.foldl (fun s r => s.send (s.message 7 0 0 r.1 r.2.2.1 line [])) (s.setFab (fun f => { f with regs := f.regs.map (fun r => if r.2.1 = line then (r.1, r.2.1, r.2.2.1, true) else r) }))
  else s

/-- R225: a store into a save area alters the images it holds (log entry 3, DESIGN CHOICE). -/
def alterImages (l : Loc) (s : State) : State :=
  if l.sp = .phys then
    let page := l.addr / 65536
    if s.ctxs.any (fun e => e.2.area.contains page) then
      { s with blocks := s.blocks.mapV (fun b k =>
          if !k.resident && ((s.ctxs.get (s.ctxOf b) default).area.contains page) then { k with img := { k.img with altered := true } } else k) }
    else s
  else s

/-- A store of bytes at a location, by any agent: it clears the poison of the units it covers, and raises hits. What it stores in word 2 of a
barrier object, which R184 leaves undefined, reads back until the next BOINIT (log entry 1, DESIGN CHOICE). -/
def poke (l : Loc) (bs : List Byte) (s : State) : State :=
  let m := ((s.memOf l.sp).put l.addr bs).heal l.sp.eccUnit l.addr bs.length
  ((s.setMem l.sp m).wakeBo l.sp).hit l |>.sendHits l |>.alterImages l

/-- R275, R280: the row of a 64-byte line of package physical memory: consecutive 4 KiB spans are spread over the channels of their die
(log entry 23, DESIGN CHOICE). -/
def rowOf (line : Nat) : RowId :=
  let c := Config.spanChannel (line / 64) % 96
  { die := line / 2 ^ 32 % 4, stack := c / 32, channel := c % 32, row := Config.lineRow line % 2 ^ 32 }

/-- R275, R284: the number of a row's channel among the 96 of its die. -/
def dieChannel (r : RowId) : Nat := 32 * r.stack + r.channel
/-- R284: the channel of a memory event at a location: a free value where it lies in no HBM of this package (log entry 14, DESIGN CHOICE). -/
def eventChannel (l : Option Loc) (s : State) : W32 × State :=
  match l with
  | some { sp := .phys, addr := a } => (BitVec.ofNat 32 (dieChannel (rowOf (a / 64))), s)
  | _ => (s.takeFree) |> fun f => (Config.noChannel f.1, f.2)
/-- R284: an event of the memory family at a location, for an address, whose latency is a free value. -/
def tapMem (d tenant code addr : Nat) (l : Option Loc) (s : State) : State :=
  let c := s.eventChannel l
  let f := c.2.takeFree
  f.2.tapDev d 0 tenant code c.1 (BitVec.ofNat 32 addr) (Config.tapClk f.1) 0

/-- What is kept of a row. -/
def rowSt (s : State) (r : RowId) : RowSt := ((s.die r.die).rows.find? (fun x => x.row == r)).getD { row := r }
/-- Changes it. -/
def setRow (r : RowId) (f : RowSt → RowSt) (s : State) : State :=
  let x := f (s.rowSt r)
  s.setDie r.die (fun d => { d with rows := d.rows.filter (fun y => !(y.row == r)) ++ [x] })

/-- R161, R280: poisons the units that a range touches; the row of a unit of HBM then qualifies for repair, and again after a repair. -/
def spoilAt (l : Loc) (n : Nat) (s : State) : State :=
  let s := s.setMem l.sp ((s.memOf l.sp).spoil l.sp.eccUnit l.addr n)
  if l.sp = .phys then ((List.range ((l.addr % 64 + n + 63) / 64)).map (fun i => rowOf (l.addr / 64 + i))).eraseDups.foldl (fun s r => s.setRow r (fun x => { x with due := true })) s
  else s

/-- The same of some words of the line at a location. -/
def spoilWords (l : Loc) (ks : List Nat) (s : State) : State := ks.foldl (fun s i => s.spoilAt { l with addr := l.addr + 8 * i } 8) s

/-- A store of any number of bytes, a line at a time. -/
def pokeAll (l : Loc) (bs : List Byte) (s : State) : State :=
  (List.range ((l.addr % 64 + bs.length + 63) / 64)).foldl (fun s i =>
    let a := max l.addr (l.addr / 64 * 64 + 64 * i)
    s.poke { l with addr := a } ((bs.drop (a - l.addr)).take (l.addr / 64 * 64 + 64 * i + 64 - a))) s

/-- A little-endian number at a host-physical address, and its store (R298). -/
def hostNum (s : State) (a n : Nat) : Nat := s.host.num a n
def hostPut (a n x : Nat) (s : State) : State := s.poke { sp := .host, addr := a } (toBytes n x)

/-- R239: is a store of block `b` to this location gated. -/
def gated (s : State) (b : Nat) (l : Loc) : Bool := (s.block b).mirror.isSome && l.sp != .scratch b

/-- R239: the gate's bytes over what the home holds, at one unit. -/
def overlay (g : List GateUnit) (l : Loc) (bs : List Byte) : List Byte :=
  bs.mapIdx (fun i x =>
    match g.find? (fun u => u.loc = { l with addr := (l.addr + i) / 8 * 8 }) with
    | some u => ((u.data[(l.addr + i) % 8]?).getD none).getD x
    | none => x)

/-- R239: what an agent of block `b` reads at a location whose home holds `bs`. -/
def seen (s : State) (b : Nat) (l : Loc) (bs : List Byte) : List Byte :=
  match (s.block b).mirror with
  | some m => overlay m.gate l bs
  | none => bs

/-- What an agent of block `b` reads at a location of this package. -/
def view (s : State) (b : Nat) (l : Loc) (n : Nat) : List Byte := s.seen b l (s.peek l n)

/-- R239: merges a store (within one 8-byte unit) into a gate. -/
def gateStore (g : List GateUnit) (l : Loc) (page : Option (Nat × Nat × Nat)) (agent : Nat) (bs : List Byte) : List GateUnit :=
  let base := { l with addr := l.addr / 8 * 8 }
  let old := match g.find? (fun u => u.loc = base) with | some u => u.data | none => List.replicate 8 none
  let new := old.mapIdx (fun i x => if l.addr % 8 ≤ i && i < l.addr % 8 + bs.length then bs[i - l.addr % 8]? else x)
  g.filter (fun u => u.loc != base) ++ [{ loc := base, data := new, page := page, agent := agent }]

end State
end Sys2Proof.Machine
end

