-- ==== Sys2Proof/Machine/Post.lean ====
section
/-! DEFINITION. What the device reports: event-ring records (R325 to R327), Lantern taps (R283, R284), and translation
through stage 2 for guest-physical addresses (R301). -/

namespace Sys2Proof.Machine

/-- R301: kind, live, id, tenant of a record. -/
def recKind (w : List Byte) : Nat := numAt w 8 1
def recLive (w : List Byte) : Bool := numAt w 9 1 % 2 = 1
def recId (w : List Byte) : Nat := numAt w 12 4
def recTenant (w : List Byte) : Nat := numAt w 16 2

/-- R314: page bytes by psize code. -/
def pageBytes (psize : Nat) : Nat := if psize = 0 then 0x10000 else if psize = 1 then 0x200000 else 0x40000000

/-- R267, R314: where a stage-2 mapping sends an offset into it. -/
def Mapping.target (m : Mapping) (off : Nat) : Loc :=
  match m.tkind with
  | 0 => { sp := .phys, addr := m.pa + off }
  | 1 => { sp := .host, addr := m.pa + off }
  | 2 => { sp := .remote m.node, addr := m.pa + off }
  | _ => { sp := .phys, addr := (m.pages[off / 65536]?).getD 0 * 65536 + off % 65536 }

/-- Does the mapping cover an input address, by the version in force or by one that is converging (R309). -/
def Mapping.covers (m : Mapping) (a : Nat) : Bool := (m.va ≤ a && a < m.va + m.len) || (m.va2 ≤ a && a < m.va2 + m.len2)

namespace State

/-- The slot whose object in force carries an id. -/
def slotOf (s : State) (id : Nat) : Option Nat := (s.recon.slots.first (fun _ x => !x.inforce.isEmpty && recId x.inforce = id)).map (fun e => e.1)
/-- R303, R308: is the record of an id CONVERGED. -/
def isConverged (s : State) (id : Nat) : Bool := match s.slotOf id with | some k => (s.slot k).state = 3 | none => false

/-- R267: the stage-1 mapping of a context that covers a virtual address. -/
def stage1 (s : State) (ctx va : Nat) : Option (Nat × Mapping) := s.maps.first (fun _ m => !m.stage2 && m.ctx = ctx && m.covers va)
/-- R267: the stage-2 mapping of a tenant that covers a guest-physical address. -/
def stage2 (s : State) (tenant gpa : Nat) : Option (Nat × Mapping) := s.maps.first (fun _ m => m.stage2 && m.tenant = tenant && m.covers gpa)

/-- A guest-physical address of a tenant, where it can be reached now. -/
def gpaLoc (s : State) (tenant gpa : Nat) : Option Loc :=
  match s.stage2 tenant gpa with
  | some (_, m) => if m.conv && !m.absent && !m.rebuild then some (m.target (gpa - m.va)) else none
  | none => none
/-- Every byte of a guest-physical range can be reached (checked per 64 KiB page). -/
def gpaReach (s : State) (tenant gpa n : Nat) : Bool :=
  (List.range ((gpa % 65536 + n + 65535) / 65536)).all (fun k => (s.gpaLoc tenant (gpa / 65536 * 65536 + k * 65536)).isSome)
/-- R355: forgets the requests of `who`, whose access is done. -/
def forget (who : ReqWho) (s : State) : State := s.setFab (fun f => { f with reqs := f.reqs.filter (fun e => e.2.who != who) })

/-- A read by the device at a location, on another package too. -/
def devRead (who : ReqWho) (l : Loc) (n : Nat) (s : State) : Rem :=
  match l.sp with | .remote node => s.remote who 1 0 node l.addr n [] | _ => .ok (s.peek l n) false

/-- The bytes at a guest-physical range that can be reached (R286, R348), up to the end of a 64-byte line at a time. -/
def gpaRead (who : ReqWho) (tenant : Nat) : Nat → Nat → Nat → List Byte → State → Rem
  | 0, _, _, acc, _ => .ok acc false
  | fuel + 1, a, n, acc, s =>
    if n = 0 then .ok acc false
    else
      let k := min (64 - a % 64) n
      match s.gpaLoc tenant a with
      | none => .err 0
      | some l =>
        match s.devRead who l k with
        | .ok bs _ => gpaRead who tenant fuel (a + k) (n - k) (acc ++ bs.take k) s
        | r => r
def gpaBytes (who : ReqWho) (tenant gpa n : Nat) (s : State) : Rem := gpaRead who tenant (n / 64 + 2) gpa n [] s

/-- A ring's address as a location. -/
def ringLoc (s : State) (r : Ring) (a : Nat) : Option Loc := if r.hv then some { sp := .host, addr := a } else s.gpaLoc r.tenant a
/-- A device store through the addresses of a ring of this package; nothing where they cannot be reached. -/
def ringPut (r : Ring) (a : Nat) (bs : List Byte) (s : State) : State :=
  match s.ringLoc r a with | some l => s.poke l bs | none => s
def ringNum (s : State) (r : Ring) (a n : Nat) : Nat := match s.ringLoc r a with | some l => ofBytes (s.peek l n) | none => 0

/-- R325: the first 16 bytes of an entry. -/
def entryHead (time type cid seq : Nat) : List Byte :=
  toBytes 2 type ++ toBytes 2 cid ++ toBytes 4 seq ++ toBytes 8 time

/-- R326: the tail word. -/
def tailWord (r : Ring) : List Byte := toBytes 4 r.tail ++ toBytes 4 r.lost

/-- R327: after a tail store, swaps the notify flag with 0 and raises the vector if it was 1. -/
def notify (r : Ring) (s : State) : State :=
  let old := s.ringNum r (r.ctl + 16) 8
  let s := s.ringPut r (r.ctl + 16) (toBytes 8 0)
  if old = 1 then { s with msix := s.msix ++ [r.vec] } else s

/-- R317: does a ring lie on another package. -/
def ringRemote (s : State) (r : Ring) : Bool :=
  let far (a : Nat) : Bool := match s.ringLoc r a with | some l => (match l.sp with | .remote _ => true | _ => false) | none => false
  far r.ctl || far r.base

/-- R326: a ring with a record of `k` entries more, or with one more lost. -/
def ringNext (r : Ring) (full : Bool) (k : Nat) : Ring := if full then { r with lost := (r.lost + 1) % 2 ^ 32 } else { r with tail := (r.tail + k) % 2 ^ 32 }
/-- R326: entries of a record, and whether they fit behind a head count. -/
def entriesOf (body : List Byte) : Nat := if body.length > 16 then 2 else 1
def ringFull (r : Ring) (k head : Nat) : Bool := (r.tail + 2 ^ 32 - head) % 2 ^ 32 + k > 2 ^ r.log2

/-- How far the posting of a record to a ring on another package has come. -/
inductive Posting where
  | wait (s : State)
  | ok (bs : List Byte) (s : State)

/-- One access of a posting, after those before it have been answered (R326, R327: the tail and the swap are sc accesses). -/
def ringOp (id : Nat) (r : Ring) (op aop a n : Nat) (bs : List Byte) (s : State) : Posting :=
  match s.ringLoc r a with
  | none => .ok [] s
  | some l =>
    match l.sp with
    | .remote node => (match s.remote (.ring id) op aop node l.addr n bs with | .wait t => .wait t | .ok d _ => .ok d s | .err _ => .ok [] s)
    | _ => if op = 1 then .ok (s.peek l n) s else .ok (s.peek l n) (s.poke l bs)

/-- R326, R327: the posting of one record to a ring on another package: its head is read, its entries and then the tail are written, and
the notify flag is swapped (log entry 73, DESIGN CHOICE). -/
def ringStep (id : Nat) (r : Ring) (e : Nat × Nat × List Byte × Nat) (s : State) : Posting :=
  let k := entriesOf e.2.2.1
  match s.ringOp id r 1 0 (r.ctl + 8) 4 [] with
  | .wait t => .wait t
  | .ok head s =>
    let full := ringFull r k (ofBytes head)
    let r' := ringNext r full k
    let bytes := (toBytes 2 e.1 ++ toBytes 2 e.2.1 ++ toBytes 4 r.tail ++ toBytes 8 e.2.2.2) ++ e.2.2.1
    let at_ (i : Nat) : Nat := r.base + 32 * ((r.tail + i) % 2 ^ r.log2)
    match (if full then Posting.ok [] s else s.ringOp id r 2 0 (at_ 0) 32 (bytes.take 32)) with
    | .wait t => .wait t
    | .ok _ s =>
      match (if full || k = 1 then Posting.ok [] s else s.ringOp id r 2 0 (at_ 1) 32 (bytes.drop 32)) with
      | .wait t => .wait t
      | .ok _ s =>
        match s.ringOp id r 2 0 r.ctl 8 (tailWord r') with
        | .wait t => .wait t
        | .ok _ s =>
          match (if full then Posting.ok [] s else s.ringOp id r 3 Aop.swap.code (r.ctl + 16) 8 (toBytes 8 0)) with
          | .wait t => .wait t
          | .ok old s =>
            let s := { s with rings := s.rings.put id { r' with pend := r.pend.drop 1 } }.forget (.ring id)
            .ok [] (if !full && ofBytes (old.take 8) = 1 then { s with msix := s.msix ++ [r.vec] } else s)

/-- R309: what was dropped for a ring joins its lost count: the ring, and the state without that count. -/
def takeDropped (id : Nat) (r : Ring) (s : State) : Ring × State :=
  ({ r with lost := (r.lost + s.recon.dropped.get id 0) % 2 ^ 32 }, s.setRecon (fun x => { x with dropped := x.dropped.del id }))

/-- The records that wait for a ring on another package are posted in order, after the tail word of a new ring; then what was dropped is counted. -/
def ringRun (id : Nat) : Nat → State → State
  | 0, s => s
  | fuel + 1, s =>
    match s.rings.find id with
    | none => s
    | some r =>
      if r.fresh then
        match s.ringOp id r 2 0 r.ctl 8 (tailWord r) with
        | .wait t => t
        | .ok _ t => ringRun id fuel ({ t with rings := t.rings.put id { r with fresh := false } }.forget (.ring id))
      else
      match r.pend with
      | [] =>
        if s.recon.dropped.get id 0 ≠ 0 && s.isConverged id then
          let x := s.takeDropped id r
          ringRun id fuel { x.2 with rings := x.2.rings.put id { x.1 with fresh := true } }
        else s
      | e :: _ =>
        match s.ringStep id r e with
        | .wait t => t
        | .ok _ t => ringRun id fuel t

/-- What a ring on another package still owes its home is written, as far as it has answered. -/
def ringGo (id : Nat) (s : State) : State := s.ringRun id ((s.rings.get id default).pend.length + 4)

/-- R309: a ring whose record is CONVERGED again counts the records dropped meanwhile. -/
def ringCount (id : Nat) (s : State) : State :=
  match s.rings.find id with
  | none => s
  | some r =>
    if s.ringRemote r then s.ringGo id
    else if s.recon.dropped.get id 0 = 0 then s
    else
      let x := s.takeDropped id r
      { x.2 with rings := x.2.rings.put id x.1 }.ringPut x.1 x.1.ctl (tailWord x.1)

/-- R309, R326: posts a record of one or two 32-byte entries to ring `id`: `body` is bytes 16 to 31 and, for a two-entry
record, the 32 bytes of the second. To a ring on another package it is written as its home answers (log entry 73, DESIGN CHOICE). One for a ring
whose record is not CONVERGED is dropped and counted. -/
def postAt (time id type cid : Nat) (body : List Byte) (s : State) : State :=
  match (if s.isConverged id then s.rings.find id else none) with
  | none => s.setRecon (fun r => { r with dropped := r.dropped.put id (r.dropped.get id 0 + 1) })
  | some r =>
    if s.ringRemote r then ({ s with rings := s.rings.put id { r with pend := r.pend ++ [(type, cid, body, time)] } }).ringGo id
    else
    let n := 2 ^ r.log2
    let k := if body.length > 16 then 2 else 1
    let headCount := s.ringNum r (r.ctl + 8) 4
    let used := (r.tail + 2 ^ 32 - headCount) % 2 ^ 32
    if used + k > n || (s.ringLoc r (r.base + 32 * (r.tail % n))).isNone then
      let r' := { r with lost := (r.lost + 1) % 2 ^ 32 }
      { s with rings := s.rings.put id r' }.ringPut r' r'.ctl (tailWord r')
    else
      let bytes := entryHead time type cid r.tail ++ body
      let s := s.ringPut r (r.base + 32 * (r.tail % n)) (bytes.take 32)
      let s := if k = 2 then s.ringPut r (r.base + 32 * ((r.tail + 1) % n)) (bytes.drop 32) else s
      let r' := { r with tail := (r.tail + k) % 2 ^ 32 }
      ({ s with rings := s.rings.put id r' }.ringPut r' r'.ctl (tailWord r')).notify r'

/-- A record of an event that happens now. -/
def postTo (id type cid : Nat) (body : List Byte) (s : State) : State := s.postAt s.now id type cid body

/-- A tenant's lowest-id converged ring. -/
def tenantRing (s : State) (tenant : Nat) : Nat := match s.rings.first (fun i r => !r.hv && r.tenant = tenant && s.isConverged i) with | some e => e.1 | none => 0
/-- The hypervisor's lowest-id converged ring. -/
def hvRing (s : State) : Nat := match s.rings.first (fun i r => r.hv && s.isConverged i) with | some e => e.1 | none => 0
/-- R313: the ring of a context's records. -/
def ctxRing (s : State) (ctx : Nat) : Nat :=
  let c := s.ctxs.get ctx default
  if c.ring = 0 then s.tenantRing c.tenant else c.ring

/-- Posts to a context's ring. -/
def postCtx (ctx type : Nat) (body : List Byte) (s : State) : State := s.postTo (s.ctxRing ctx) type (s.cidOf ctx) body
/-- R311, R307: the ring of a tenant's exits: its `hvring`, or the hypervisor's lowest one where that is no converged ring (log entry 32, DEDUCED). -/
def exitRing (s : State) (tenant : Nat) : Nat :=
  let r := (s.tenant tenant).hvring
  if (s.rings.find r).isSome && s.isConverged r then r else s.hvRing
/-- R311: posts a tenant's exit. -/
def postExit (tenant type cid : Nat) (body : List Byte) (s : State) : State := s.postTo (s.exitRing tenant) type cid body
/-- Posts to the hypervisor's ring. -/
def postHv (type : Nat) (body : List Byte) (s : State) : State := s.postTo s.hvRing type 0 body

/-- R325 type 1. -/
def postFault (b j agent addr mapping : Nat) (s : State) : State :=
  s.postCtx (s.ctxOf b) 1 (toBytes 8 addr ++ toBytes 1 agent ++ toBytes 1 j ++ toBytes 2 (s.coreOf b) ++ toBytes 4 mapping)
/-- R325 type 16. -/
def postStage2 (b gpa : Nat) (s : State) : State :=
  s.postExit (s.tenantOf b) 16 (s.cidOf (s.ctxOf b)) (toBytes 8 gpa ++ toBytes 2 (s.tenant (s.tenantOf b)).vm ++ toBytes 2 (s.coreOf b) ++ toBytes 4 0)
/-- R325 type 3: a consumption (consumer 0 lane, 1 scalar, 2 engine, 3 quadrant), with the die's memory tap at the location of the error. -/
def postConsumed (b j consumer addr : Nat) (lanes : W32) (l : Option Loc) (s : State) : State :=
  let c := s.eventChannel l
  let f := (c.2.postCtx (c.2.ctxOf b) 3 (toBytes 8 addr ++ toBytes 1 consumer ++ toBytes 1 j ++ toBytes 2 (s.coreOf b) ++ toBytes 4 lanes.toNat)).takeFree
  f.2.tapBeam b j 0x32 c.1 (BitVec.ofNat 32 addr) (Config.tapClk f.1) 0

end State
end Sys2Proof.Machine
end

