-- ==== Sys2Proof/Machine/Xlat.lean ====
section
/-! DEFINITION. The checks of an access (R15 to R20, R158), its translation (R260, R267, R269) and the dirty log (R272). -/

namespace Sys2Proof.Machine

/-- R15: the apertures. -/
inductive Aperture where
  | scratch | cluster | priv | glob
  deriving DecidableEq, Repr

def aperture (a : W64) : Aperture :=
  let h := a.toNat / 2 ^ 48
  if h = 0xFFFE then .scratch else if h = 0xFFFD then .cluster else if h = 0xFFFC then .priv else .glob
/-- R15: bits [63:48] of an aperture's addresses. -/
def Aperture.sel : Aperture → Nat
  | .scratch => 0xFFFE | .cluster => 0xFFFD | .priv => 0xFFFC | .glob => 0

/-- R16: bits [63:57] all equal bit 56. -/
def canonical (a : W64) : Bool := a.toNat / 2 ^ 56 = 0 || a.toNat / 2 ^ 56 = 0xFF

/-- R15, R16: is the address well-formed; the answer is the MEM code of check 2 otherwise. -/
def formFault (a : W64) : Option Nat :=
  match aperture a with
  | .scratch => if a.toNat % 2 ^ 48 / 2 ^ 20 = 0 then none else some 1
  | .cluster => if a.toNat % 2 ^ 48 / 2 ^ 22 = 0 then none else some 1
  | .priv => if a.toNat % 2 ^ 48 / 2 ^ 32 = 0 then none else some 1
  | .glob => if canonical a then none else some 2

/-- Field `offset` and `core` of an aperture address (R15). -/
def scratchOff (a : W64) : Nat := a.toNat % 2 ^ 20
def clusterCore (a : W64) : Nat := a.toNat / 2 ^ 20 % 4
def privOff (a : W64) : Nat := a.toNat % 2 ^ 32

/-- The outcome of locating an access: a location with, for a stage-2 page, what the dirty log needs (tenant, page base,
psize); a MEM trap code; or a page fault with its page, MAPPING and guest-physical address for a stage-2 miss. -/
inductive Xl where
  | ok (l : Loc) (page : Option (Nat × Nat × Nat))
  | trap (code : Nat)
  | fault (page mapping : Nat) (gpa : Option Nat)
  deriving DecidableEq, Repr

/-- R323: the address of every context's capability page (log entry 15, DESIGN CHOICE). -/
def capVa : Nat := 0x00FFFFFFFFFF0000

/-- R258: the lowest-numbered used entry of a revision table that covers an address. -/
def coverIdx (es : List RevEnt) (va : Nat) : Option Nat :=
  (List.range es.length).find? (fun i => match es[i]? with | some e => e.len != 0 && e.base ≤ va && va < e.base + e.len | none => false)

namespace State

/-- R267, R269: translates a global address for a context and tenant. -/
def xlat (s : State) (ctx tenant va : Nat) (write : Bool) : Xl :=
  if capVa ≤ va && va < capVa + 65536 then (if write then .trap 8 else .ok { sp := .cap tenant, addr := va - capVa } none)
  else
  match s.stage1 ctx va with
  | none => .trap 7
  | some (id, m) =>
    if m.conv && write && !m.w then .trap 8
    else
      let gpa := m.pa + (va - m.va)
      match s.stage2 tenant gpa with
      | none => if !m.conv || m.rebuild || m.absent then .fault (va / 65536) id none else .fault (va / 65536) id (some gpa)
      | some (_, n) =>
        if m.conv && n.conv && write && !n.w then .trap 8
        else if !m.conv || m.rebuild || m.absent || !n.conv || n.rebuild || n.absent then .fault (va / 65536) id none
        else .ok (n.target (gpa - n.va)) (some (tenant, gpa / pageBytes n.psize * pageBytes n.psize, n.psize))

/-- R260: the view of a task: a covered line is its own revision. -/
def taskView (s : State) (t va : Nat) (x : Xl) : Xl :=
  match x with
  | .ok l p =>
    match (s.task t).rev with
    | some r => if (s.task t).joined || (coverIdx r.ents va).isNone then .ok l p else .ok { sp := .rev t, addr := va } none
    | none => .ok l p
  | y => y

/-- R19: the global address of a private-aperture address of a lane, modulo 2^64 (log entry 64, DESIGN CHOICE). -/
def privGlobal (s : State) (b j lane : Nat) (a : W64) : Nat :=
  ((s.block b).prbase.toNat + (32 * j + lane) * (s.block b).prsize + privOff a) % 2 ^ 64

/-- Where an access of beam `j` of block `b` goes, after its form, alignment and bounds are good. -/
def locate (s : State) (b j lane : Nat) (a : W64) (write : Bool) : Xl :=
  match aperture a with
  | .scratch => .ok { sp := .scratch b, addr := scratchOff a } none
  | .cluster => match s.groupBlock b (clusterCore a) with | some t => .ok { sp := .scratch t, addr := scratchOff a } none | none => .trap 5
  | .priv =>
    let va := s.privGlobal b j lane a
    if canonical (BitVec.ofNat 64 va) then s.taskView (s.block b).task va (s.xlat (s.ctxOf b) (s.tenantOf b) va write) else .trap 2
  | .glob => s.taskView (s.block b).task a.toNat (s.xlat (s.ctxOf b) (s.tenantOf b) a.toNat write)

/-- R17 to R19: check 4. -/
def boundsFault (s : State) (b : Nat) (a : W64) (n : Nat) : Option Nat :=
  match aperture a with
  | .scratch => if scratchOff a + n ≤ (s.block b).scratchSize then none else some 4
  | .cluster =>
    match s.groupBlock b (clusterCore a) with
    | none => some 5
    | some t => if scratchOff a + n ≤ (s.block t).scratchSize then none else some 4
  | .priv => if privOff a + n ≤ (s.block b).prsize then none else some 6
  | .glob => none

/-- R19: where the private base leaves an access across two aligned 8-byte units: the bytes that lie in the first (log entry 64, DESIGN CHOICE). -/
def splitAt (s : State) (b j lane : Nat) (a : W64) (n : Nat) : Option Nat :=
  let r := s.privGlobal b j lane a % 8
  if aperture a == .priv && 8 < r + n then some (8 - r) else none

/-- R269: the MEM code with which the translation of an access of `n` bytes traps: of its first byte, and of the part in its second
8-byte unit. -/
def xlatTrap (s : State) (b j lane : Nat) (a : W64) (n : Nat) (write : Bool) : Option Nat :=
  let code (a : W64) : Option Nat := match s.locate b j lane a write with | .trap c => some c | _ => none
  (code a).orElse (fun _ => match s.splitAt b j lane a n with | some k => code (a + BitVec.ofNat 64 k) | none => none)

/-- R158: the MEM code that check `step` (2 to 6) of an access gives, if it fails; a private address whose global address is not
canonical fails check 5 (log entry 64, DEDUCED). -/
def checkFault (s : State) (step b j lane : Nat) (a : W64) (n : Nat) (write scalar : Bool) : Option Nat :=
  match step with
  | 2 => if scalar && aperture a == .priv then some 1 else formFault a
  | 3 => if a.toNat % n = 0 then none else some 3
  | 4 => s.boundsFault b a n
  | 5 => match s.xlatTrap b j lane a n write with | some 7 => some 7 | some 2 => some 2 | _ => none
  | _ => match s.xlatTrap b j lane a n write with | some 8 => some 8 | _ => none

/-- R218: the MEM detail. `kind`: 0 load, 1 store, 2 read-modify-write, 3 WATCH. -/
def memCause (code lane kind : Nat) (scalar : Bool) (mask : W32) (a : W64) : Cause :=
  { grp := 1, code := code, d0 := lane + (if scalar then 32 else 0) + 64 * kind, d1 := mask, d2 := a.setWidth 32 }

/-- R158: of some checks in order, the first that fails in any lane decides; `accs` are (lane, address) in ascending lane order. -/
def checksOf (s : State) (steps : List Nat) (b j : Nat) (accs : List (Nat × W64)) (n kind : Nat) (scalar : Bool) : Option Cause :=
  steps.findSome? (fun step =>
    let bad := accs.filterMap (fun (i, a) => (s.checkFault step b j i a n (kind == 1 || kind == 2) scalar).map (fun c => (i, a, c)))
    match bad with
    | [] => none
    | (i, a, c) :: _ => some (memCause c i kind scalar (maskOf (fun k => bad.any (fun e => e.1 = k))) a))

/-- R158: checks 2 to 6. -/
def accessCause (s : State) (b j : Nat) (accs : List (Nat × W64)) (n kind : Nat) (scalar : Bool) : Option Cause := s.checksOf [2, 3, 4, 5, 6] b j accs n kind scalar

/-- R158: checks 5 and 6 alone. -/
def mappingCause (s : State) (b j : Nat) (accs : List (Nat × W64)) (n kind : Nat) : Option Cause := s.checksOf [5, 6] b j accs n kind false

/-- R274: is a tenant's dirty log full. -/
def logFull (s : State) (t : Nat) : Bool :=
  let x := s.tenant t
  2 ^ x.dllog2 ≤ (x.dlTail + 2 ^ 32 - s.hostNum x.dlhead 4) % 2 ^ 32

/-- R274: is a writer of a tenant's `parked` list still parked. -/
def stillParked (s : State) (w : Nat × Nat × Nat) : Bool :=
  if w.1 = 2 ^ 32 then ((s.core w.2.1).se.get w.2.2 []).any (fun e => match e.stall with | some p => decide (2 ^ 64 ≤ p) | none => false)
  else if w.1 = 2 ^ 32 + 1 then (s.task w.2.1).rev.isSome && !(s.task w.2.1).joined
  else if w.1 = 2 ^ 32 + 2 then s.onCore w.2.1 && (match (s.block w.2.1).mirror with | some m => !m.gate.isEmpty | none => false)
  else if w.1 = 2 ^ 32 + 3 then (s.beamAt (w.2.1 / 32) (w.2.1 % 32)).clears.contains w.2.2
  else if w.1 = 2 ^ 32 + 4 then
    s.onCore (w.2.1 / 32) && (match (s.block (w.2.1 / 32)).halt with | some h => h.quiet | none => false) && ((s.beamAt (w.2.1 / 32) (w.2.1 % 32)).frags.find w.2.2).isSome
  else
    let x := s.beamAt w.1 w.2.1
    s.onCore w.1 && !x.exited && (if w.2.2 = 0 then (match x.spark with | .dirty | .stores _ none => true | _ => false) else match x.unit (w.2.2 - 1) with | some y => y.held.isSome | none => false)

/-- R272, R274: must the write of a page by writer `w` wait: it needs a log entry, and the ring is full, or a writer that found it full
before `w` still waits. -/
def dirtyFull (s : State) (page : Option (Nat × Nat × Nat)) (w : Option (Nat × Nat × Nat) := none) : Bool :=
  match page with
  | none => false
  | some (t, base, _) =>
    let x := s.tenant t
    x.dlbase != 0 && !x.dirty.contains base && (s.logFull t || (match w with | some w => (x.parked.takeWhile (· != w)).any s.stillParked | none => false))

/-- R272, R273: logs the first write to a page: the entry, then the tail count. `agent`: 0 thread or scalar stream,
1 stream engine, 2 quadrant, 3 merge. -/
def logDirty (page : Option (Nat × Nat × Nat)) (agent cid : Nat) (s : State) : State :=
  match page with
  | none => s
  | some (t, base, psize) =>
    let x := s.tenant t
    if x.dlbase = 0 || x.dirty.contains base then s
    else
      let entry := toBytes 8 base ++ toBytes 1 psize ++ toBytes 1 agent ++ toBytes 2 cid ++ toBytes 4 x.dlTail
      let s := s.poke { sp := .host, addr := x.dlbase + 16 * (x.dlTail % 2 ^ x.dllog2) } entry
      let s := s.setTenant t (fun y => { y with dlTail := (y.dlTail + 1) % 2 ^ 32, dirty := base :: y.dirty })
      (s.hostPut (x.dlhead + 8) 4 (x.dlTail + 1)).tapMem (match s.gpaLoc t base with | some l => if l.sp = .phys then l.addr / 2 ^ 38 % 4 else 0 | none => 0) t 0x33 base (s.gpaLoc t base)

/-- R216, R222: the `preq` bits that a KNOCK of a cause sets. -/
def knockBits (c : StopCause) : BitVec 3 := 1 ||| (if c == .test then 2 else 0) ||| (match c with | .teardown _ => 4 | _ => 0)
/-- R223, R227: a test only KNOCKs; a teardown runs the whole ladder. -/
def stopRank (c : StopCause) : Nat := match c with | .test => 1 | .teardown _ => 3 | _ => 2
/-- R222: the ladder that targets a block. -/
def ladderOf (s : State) (b : Nat) : Option Ladder := (s.ladders.first (fun _ l => l.blocks.contains b)).map (fun e => e.2)
/-- R227: the key of the ladder by which the in-field test of a cluster stops the blocks of a context there. -/
def testKey (cl ctx : Nat) : Nat := 2 ^ 32 * (cl + 1) + ctx
/-- The context of a ladder's key: a CONTEXT record's id, the id of a PROGRAM record, or that of a test's ladder. -/
def ladderCtx (s : State) (key : Nat) : Nat :=
  if 2 ^ 32 ≤ key then key % 2 ^ 32 else if (s.ctxs.find key).isSome then key else (s.progs.get key default).ctx
/-- The live blocks that satisfy `p`. -/
def blocksOf (s : State) (p : Nat → Bool) : List Nat := (s.blocks.filter (fun e => !e.2.ended && p e.1)).map (fun e => e.1)

/-- R222, R223: a KNOCK of blocks: `preq` is set in each of their beams, but for a handler's, which sees it at its end. A
KNOCK over a weaker one takes its place, and its blocks from a test's; otherwise the blocks join the ladder that runs (log entry 41, DEDUCED). -/
def startLadderOn (key : Nat) (cause : StopCause) (dirty : Bool) (bs : List Nat) (s : State) : State :=
  let ctx := s.ladderCtx key
  let c := s.ctxs.get ctx default
  let deadline := if stopRank cause = 1 || (c.nopre && stopRank cause < 3) then none else some (s.now + 100 * (s.tenant c.tenant).grace)
  let old := s.ladders.find key
  let l : Ladder := match old with
    | none => { step := 1, cause := cause, blocks := bs, since := s.now, deadline := deadline, dirty := dirty, knock := s.now }
    | some l =>
      let all := l.blocks ++ bs.filter (fun b => !l.blocks.contains b)
      if stopRank l.cause < stopRank cause then { l with cause := cause, blocks := all, deadline := l.deadline.orElse (fun _ => deadline), dirty := dirty, step := if l.step = 3 then 1 else l.step }
      else { l with blocks := all, step := if l.step = 3 && all.any (fun b => (s.block b).resident) then 1 else l.step }
  let s := { s with ladders := (s.ladders.mapV (fun _ x => if stopRank x.cause < stopRank cause then { x with blocks := x.blocks.filter (fun b => !bs.contains b) } else x)).put key l }
  let s := bs.foldl (fun s b => s.setBeams b (fun _ x => if x.inHandler then x else { x with preq := x.preq ||| knockBits l.cause })) s
  (List.range 4).foldl (fun s d => if bs.any (fun b => dieOf (s.coreOf b) = d) then s.tapDev d ctx c.tenant 0x08 0 0 0 0 else s) s

/-- R222: a stop request for a whole context. -/
def startLadder (ctx : Nat) (cause : StopCause) (s : State) : State := s.startLadderOn ctx cause false (s.blocksOf (fun b => s.ctxOf b = ctx))

/-- R274: the log is found full: one exit per filling, and the ladder of every context of the tenant. -/
def fullExit (t : Nat) (s : State) : State :=
  let x := s.tenant t
  if x.full && x.fullTail = x.dlTail then s
  else
    let s := (s.setTenant t (fun y => { y with full := true, fullTail := x.dlTail })).postExit t 17 0 (toBytes 2 x.vm ++ toBytes 2 0 ++ toBytes 4 x.dlTail ++ toBytes 8 0)
    s.ctxs.foldl (fun s e => if e.2.tenant = t then s.startLadderOn e.1 (.rebalance x.recId) true (s.blocksOf (fun b => s.ctxOf b = e.1)) else s) s

/-- R274: a write of the page waits for space: its writer keeps its place in the order. -/
def parkFull (page : Option (Nat × Nat × Nat)) (w : Option (Nat × Nat × Nat) := none) (s : State) : State :=
  match page with
  | none => s
  | some (t, _, _) =>
    let s := match w with
      | some w => s.setTenant t (fun x => let l := x.parked.filter (fun v => v = w || s.stillParked v); { x with parked := if l.contains w then l else l ++ [w] })
      | none => s
    if s.logFull t then s.fullExit t else s

/-- R274, R284: the same for an access of a beam or of an engine entry of a beam, which parks as at a page fault: with its event, once. -/
def parkWrite (b j va : Nat) (page : Option (Nat × Nat × Nat)) (w : Nat × Nat × Nat) (s : State) : State :=
  let new := match page with | some (t, _, _) => !((s.tenant t).parked.contains w) | none => false
  (if new then s.tapFault b j va else s).parkFull page (some w)

/-- R274: a writer has written. -/
def unpark (w : Nat × Nat × Nat) (s : State) : State :=
  { s with tenants := s.tenants.mapV (fun _ x => if x.parked.isEmpty then x else { x with parked := x.parked.filter (· != w) }) }

end State
end Sys2Proof.Machine
end

