-- ==== Sys2Proof/Machine/Ops.lean ====
section
/-! DEFINITION. The operations that many meanings share: taking an exception and returning from one (R215 to R220), the
end of a beam, remote requests (R355), the accesses of the scalar stream with their checks, faults and errors. -/

namespace Sys2Proof.Machine

/-- R241: CRC-64 of ECMA-182, one bit at a time. -/
def crcBits : Nat → W64 → W64
  | 0, c => c
  | n + 1, c => crcBits n (if c.getLsbD 63 then (c <<< 1) ^^^ 0x42F0E1EBA9EA3693#64 else c <<< 1)
def crcByte (c : W64) (b : Byte) : W64 := crcBits 8 (c ^^^ ((b.setWidth 64) <<< 56))
def crc64 (c : W64) (bs : List Byte) : W64 := bs.foldl crcByte c
/-- R241: the signature record of one gated store. -/
def sigRecord (a : W64) (bs : List Byte) : List Byte := toBytes 8 a.toNat ++ toBytes 8 bs.length ++ toBytes 8 (ofBytes bs)

/-- The outcome of an access of the scalar stream: done, a precise trap, parked, or the beam killed by an error (R161). -/
inductive Got (α : Type) where
  | done (x : α) (s : State)
  | trap (c : Cause)
  | wait (p : SPark) (s : State)
  | kill (s : State)

/-- R216: the `tcg` of a trap taken by beam `j`. -/
def Cause.tcg (c : Cause) (j : Nat) : W32 := BitVec.ofNat 32 (c.grp + (if c.async then 32 else 0) + 256 * j)
/-- R218: `tdr0` of a cause. -/
def Cause.tdr0 (c : Cause) : W32 := BitVec.ofNat 32 (c.code + 65536 * c.d0)

/-- The outcome of an instruction. -/
abbrev Out := Host.Outcome State Fault Refusal

/-- R216, R224: what an instruction parked at a halt keeps; every other park is evaluated again from the start. -/
def SPark.kept : SPark → SPark
  | .claim age n => .claim age n
  | .bar k => .bar k
  | .stores l p => .stores l p
  | .fault p r => .fault p r
  | .remote t => .remote t
  | _ => .none

/-- What a trapped scalar access leaves of its wait: it is sent again when its instruction is executed again. -/
def SPark.unsent : SPark → SPark
  | .remote _ => .none
  | p => p

/-- R216: a beam goes on after a halt: its parked instruction is evaluated again. -/
def Beam.reeval (x : Beam) : Beam := { x with spark := x.spark.kept, woken := false, hitFor := 0, read := none }

/-- R199, R210: is a pending cause the abort that holds entries of stream-engine queue `q`, or of the quadrant. -/
def Cause.holdsSe (q : Nat) (c : Cause) : Bool := ((c.grp = 6 && 6 ≤ c.code) || (c.grp = 8 && c.code = 1)) && c.d0 / 32 % 4 = q
def Cause.holdsQuad (c : Cause) : Bool := c.grp = 8 && c.code = 2 && c.d1.toNat % 4 = 0

/-- R199, R210: the entries held by aborts whose own handler has ended go on; those of an abort still pending stay held. -/
def Block.unhold (k : Block) : Block :=
  { k with
    heldSe := k.heldSe.filter (fun q => k.causes.any (fun e => e.2.holdsSe q))
    heldQuad := if k.causes.any (fun e => e.2.holdsQuad) then k.heldQuad else none }

/-- R220, R222, R226: the halt of a block when its handler, or its debugger, has done: none, unless a SHUTTER stops it. -/
def Halt.goesOn (h : Halt) : Option Halt := if h.quiet then some { stage := .signalled, since := h.since, quiet := true, shut := h.shut } else none

/-- R244: a full gate is found: `d0` = 1 marks the cause until both blocks have been restored and it is raised in them. -/
def gateCause : Cause := { grp := 8, code := 3, d0 := 1, d1 := 65536 }

/-- An access that is done, with what it gives and the state changed. -/
def Got.map {α : Type} (g : Got α) (f : α → State → α × State) : Got α :=
  match g with
  | .done x s => let r := f x s; .done r.1 r.2
  | .trap c => .trap c
  | .wait p s => .wait p s
  | .kill s => .kill s

namespace State

/-- R219: a trap raised in beam `j` while the handler of the block runs: it sets `tcg[6]`, records where the beam stands (R216),
and the block is to be terminated. No beam issues another word. What the handler needs to go on is kept for a debugger (R226). -/
def trapInHandler (b j : Nat) (c : Cause) (s : State) : State :=
  match (s.block b).halt with
  | none => s
  | some h =>
    let old := s.beamAt b h.beam
    let out : Nested := h.nested.getD { beam := h.beam, cause := h.cause, unit := h.unit, tpc := old.tpc, tlpc := old.tlpc }
    let s := s.setBeam b j (fun x => { x with tcg := c.tcg j ||| (if x.inHandler then 0xC0 else 0x40), tdr0 := c.tdr0, tdr1 := c.d1, tdr2 := c.d2, tpc := x.spc, tlpc := (x.lit.map (·.pc)).getD 0 })
    let s := s.tapBeam b j (if c.async then 0x05 else 0x04) (s.beamAt b j).tcg c.tdr0 c.d1 c.d2
    s.setBlock b (fun k => { k with halt := some { h with beam := j, cause := some c, unit := none, stage := .ending, since := s.now, nested := some out } })

/-- TAKING AN EXCEPTION (R215 steps 1 and 2, R216, R218): beam `j` of block `b` traps with cause `c`, in lane unit `u` if
it is a lane word. The block's halt is signalled and the cause registers of the beam are written; `haltDone` is the rest.
In a block that already halts the word has no effect (a skid word that would trap), except that a trap of the running
handler marks the block for termination (R219). -/
def takeTrap (b j : Nat) (c : Cause) (u : Option Nat) (s : State) : State :=
  match (s.block b).halt with
  | some h => if h.stage = .handler && h.beam = j then s.trapInHandler b j c else s
  | none =>
    let s := s.setBeams b (fun _ x => { x with skid := 0, tcg := BitVec.ofNat 32 (256 * j), tdr0 := 0, tdr1 := 0, tdr2 := 0 })
    let s := s.setBeam b j (fun x => { x with tcg := c.tcg j, tdr0 := c.tdr0, tdr1 := c.d1, tdr2 := c.d2 })
    let s := s.setBlock b (fun k => { k with halt := some { beam := j, cause := some c, unit := u, since := s.now }, stepping := none })
    let k := s.block b
    if c.grp = 8 && c.code = 3 && c.d0 = 1 then s
    else (s.tapBeam b j (if c.async then 0x05 else 0x04) (c.tcg j) c.tdr0 c.d1 c.d2).tapBeam b j 0x03 (BitVec.ofNat 32 k.index) (k.launch.setWidth 32) (BitVec.ofNat 32 k.beams.length) 0

/-- The lowest-indexed beam that has not exited. -/
def firstBeam (s : State) (b : Nat) : Nat := ((s.block b).liveBeams[0]?).getD 0

/-- R217: an asynchronous cause goes to the beam that issued the entry, else to the lowest-indexed beam that has not
exited. One raised while a handler runs ends the block (R219). In a block whose halt has not reached its handler it is held
until the block resumes, and so is a full gate, which restores both blocks (R244; log entry 59, DEDUCED). -/
def asyncTrap (b j : Nat) (c : Cause) (s : State) : State :=
  let k := s.block b
  let t := if (s.beamAt b j).exited then (k.liveBeams[0]?).getD j else j
  match k.halt with
  | some h =>
    if h.stage = .handler && c != gateCause then s.trapInHandler b t c
    else s.setBlock b (fun k => { k with causes := k.causes ++ [(j, c)] })
  | none => s.takeTrap b t c none

/-- The issuing beam's scalar instruction traps; it has had no effect. -/
def trapMe (c : Cause) (s : State) : State := (s.takeTrap s.cur.blk s.cur.beam c none).flow (.trapped c)

/-- The lane word being issued traps in its unit; it has had no effect. -/
def trapLane (c : Cause) (s : State) : State := (s.takeTrap s.cur.blk s.cur.beam c (some s.cur.unit)).flow (.trapped c)

/-- R218: the ILLEGAL layout: slot (3 scalar), field, value. -/
def illegal (code slot field value : Nat) : Cause := { grp := 3, code := code, d0 := slot + 4 * field, d1 := BitVec.ofNat 32 value }
/-- R218: ILLEGAL.TARGET. -/
def targetCause (slot field : Nat) (t : W64) : Cause :=
  { grp := 3, code := 6, d0 := slot + 4 * field, d1 := t.setWidth 32, d2 := (t >>> 32).setWidth 32 }

/-- R215 step 3, R216: every beam records where it stopped, and the handler's beam starts it (R217). -/
def haltDone (b : Nat) (s : State) : State :=
  match (s.block b).halt with
  | none => s
  | some h =>
    let s := s.setBeams b (fun j x =>
      let lpc := if j = h.beam then (match h.unit with | some u => (x.unit u).map (·.pc) | none => x.lit.map (·.pc)) else x.lit.map (·.pc)
      { x with tpc := x.spc, tlpc := lpc.getD 0 })
    s.setBlock b (fun k => { k with halt := some { h with stage := .handler, spc := (s.beamAt b h.beam).spc, spark := (s.beamAt b h.beam).spark } })

/-- R217: the handler's first instruction is next on the trapping beam. -/
def enterHandler (b : Nat) (s : State) : State :=
  match (s.block b).halt with
  | none => s
  | some h =>
    let s := (s.haltDone b).setBeam b h.beam (fun x => { x with spc := x.trapvec &&& 0x7FFFFFFFFFFFFFFF, tcg := x.tcg ||| 0x80, spark := .none })
    let x := s.beamAt b h.beam
    s.tapBeam b h.beam 0x06 x.tcg x.tdr0 x.tdr1 x.tdr2

/-- R217: a block that has resumed takes the first asynchronous cause that was held meanwhile. -/
def takeHeld (b : Nat) (s : State) : State :=
  if (s.block b).halt.isSome then s
  else
    match (s.block b).causes with
    | [] => s
    | (j, c) :: r =>
      let s := (s.setBlock b (fun k => { k with causes := r })).asyncTrap b j c
      if c.grp = 9 then s.setBlock b (fun k => { k with halt := k.halt.map (fun h => { h with frozen := k.freeze }) }) else s

/-- R220, R226: unit `u` of a beam goes to a PC: at another word than it stands at, it keeps nothing of the old one, and waits for no
entry (R37). -/
def unitAt (u : Nat) (pc : W64) (x : Beam) : Beam :=
  match x.unit u with
  | some y => if y.pc = pc then x else { x.setUnit u (some { y with pc := pc, join := false, mwait := none, held := none }) with uqneed := 0 }
  | none => x

/-- R216: the parked instructions of a block are evaluated again from the start: what they had read is read again. -/
def reevalBlock (b : Nat) (s : State) : State :=
  (s.setFab (fun f => { f with reqs := f.reqs.filter (fun e => match e.2.who with | .scalar x _ => x != b || e.2.answer.isNone | _ => true) })).setBeams b (fun _ x => x.reeval)

/-- RETURN FROM AN EXCEPTION (R220): `tcg[7]` is cleared, the scalar stream goes to `tpc`, the trapping unit to `tlpc`,
and every beam of the block resumes, unless a SHUTTER stops the block (R222); a cause held meanwhile is then taken, and a KNOCK
held meanwhile shows (R222). -/
def leaveHandler (b : Nat) (s : State) : State :=
  match (s.block b).halt with
  | none => s
  | some h =>
    let s := s.setBeam b h.beam (fun x =>
      let x := { x with tcg := x.tcg &&& ~~~0x80, spc := x.tpc, spark := if x.tpc = h.spc then h.spark else .none }
      unitAt (h.unit.getD 0) x.tlpc x)
    let s := s.reevalBlock b
    let s := if h.quiet then s.setBeams b (fun j x => { x with skid := if j = h.beam then BitVec.ofNat 64 (16 * (8 - h.left)) else 0 }) else s
    let s := s.setBlock b (fun k => { k.unhold with halt := h.goesOn })
    let x := s.beamAt b h.beam
    let s := s.tapBeam b h.beam 0x07 x.tcg x.tdr0 x.tdr1 x.tdr2
    let s := match s.ladderOf b with
      | some l => if l.step = 1 then s.setBeams b (fun _ x => { x with preq := x.preq ||| knockBits l.cause }) else s
      | none => s
    s.takeHeld b

/-- R357: the node of a remotely homed watch entry. -/
def watchNode (e : WatchE) : Option Nat := match e.loc.sp with | .remote n => some n | _ => none

/-- R357: does a beam of the package, or a checkpoint (R242), still watch a line, or is a WATCH of it in flight. -/
def watched (s : State) (l : Loc) : Bool :=
  s.fab.reqs.any (fun e => match e.2.who with | .watch _ _ => e.2.msg.op = 6 && l = { sp := .remote e.2.msg.dst.toNat, addr := e.2.msg.addr.toNat } | _ => false) ||
  s.blocks.any (fun e => e.2.beams.any (fun x => x.2.watch.any (fun w => w.loc = l))) || s.ckpts.any (fun e => e.2.beams.any (fun x => x.2.watch.any (fun w => w.loc = l)))

/-- R357: the registration of a line at its home ends. -/
def sendUnwatch (node addr : Nat) (s : State) : State :=
  (s.setFab (fun f => { f with watching := f.watching.filter (fun e => !(e.1 = node && e.2.1 = addr / 64 * 64)) })).send (s.message 8 0 0 node 0 addr [])

/-- R357: releases the remote registrations of a watch set that is gone, but for lines that are still watched. -/
def unwatch (es : List WatchE) (s : State) : State :=
  es.foldl (fun s e => match watchNode e with | some n => if s.watched e.loc then s else s.sendUnwatch n e.loc.addr | none => s) s

/-- R178, R228: the parked claims of a block, oldest first, as (age, beam, n); those of one clk by beam index. -/
def parkedClaims (k : Block) : List (Nat × Nat × Nat) :=
  (k.beams.filterMap (fun e => match e.2.spark with | .claim age n => if e.2.exited then none else some (age, e.1, n) | _ => none)).mergeSort (fun x y => x.1 ≤ y.1)

/-- R177: a granted claim: the units join, and the scalar stream goes on. -/
def grantClaim (b j n : Nat) (s : State) : State :=
  let s := s.setBeam b j (fun x => { x with units := x.units + n, spark := .none, spc := x.spc + 1 })
  s.tapBeam b j 0x12 (BitVec.ofNat 32 n) (BitVec.ofNat 32 (s.block b).reserve) (BitVec.ofNat 32 (s.beamAt b j).units) 0

/-- R178: the scan: oldest first, each claim that fits is granted. -/
def grantClaims (b : Nat) (s : State) : State :=
  (parkedClaims (s.block b)).foldl (fun s e => if e.2.2 ≤ (s.block b).reserve then s.grantClaim b e.2.1 e.2.2 else s) s

/-- The writer of the lane word being issued, as a tenant's `parked` list names it (R274). -/
def laneWriter (s : State) : Nat × Nat × Nat := (s.cur.blk, s.cur.beam, s.cur.unit + 1)

/-- R84: performs the late stores of a beam that satisfy `p`, in the order of their issue. -/
def performSome (b j : Nat) (p : LateStore → Bool) (s : State) : State :=
  let l := (s.beamAt b j).late
  if l.any p then ((l.filter p).foldl (fun s e => s.poke e.loc e.data) (s.setBeam b j (fun x => { x with late := x.late.filter (fun e => !p e) })))
  else s

/-- R84: performs every late store of a beam. -/
def performAll (b j : Nat) (s : State) : State := s.performSome b j (fun _ => true)

/-- R84, R237: must a late store of block `b` precede an access by a lane (none: the scalar stream): it precedes it in beam order and meets one
of its 8-byte units, or the same agent made it to the same other core's pool. -/
def comesFirst (b : Nat) (by_ : Option Nat) (l : Loc) (n : Nat) (e : LateStore) : Bool :=
  e.loc.sp = l.sp && (((e.lane.isSome = by_.isSome || e.both) && l.addr / 8 ≤ e.loc.addr / 8 && e.loc.addr / 8 ≤ (l.addr + n - 1) / 8)
    || (e.lane = by_ && (match l.sp with | .scratch t => t != b | _ => false)))

/-- R84, R150, R237: before an access of a beam, the late stores that precede it are performed. -/
def performAt (b j : Nat) (by_ : Option Nat) (l : Loc) (n : Nat) (s : State) : State := s.performSome b j (comesFirst b by_ l n)

/-- R83: an edge joins the late stores of one stream of a beam to the other stream. -/
def shareLate (b j : Nat) (lanes : Bool) (s : State) : State :=
  let of_ (e : LateStore) : Bool := e.lane.isSome = lanes && !e.both
  if (s.beamAt b j).late.any of_ then s.setBeam b j (fun x => { x with late := x.late.map (fun e => if of_ e then { e with both := true } else e) }) else s

/-- R26, R28, R84: the late stores of a stream, and those of the other that precede its next word, are performed. -/
def performOwn (b j : Nat) (lanes : Bool) (s : State) : State := s.performSome b j (fun e => e.lane.isSome = lanes || e.both)

/-- R18: is an access to the scratch of block `b`, which a beam of another block has issued, still to be performed. -/
def inFlightTo (s : State) (b : Nat) : Bool :=
  s.blocks.any (fun e => e.1 != b && e.2.beams.any (fun x => x.2.late.any (fun l => l.loc.sp = .scratch b)
    || (x.2.unitIds.filterMap x.2.unit).any (fun y => match y.held with
      | some h => (lanesOf h.unfinished).any (fun i => (h.accs.get i default).dest = some b)
      | none => false)))
  || s.cores.any (fun c => c.2.se.any (fun q => q.2.any (fun e => e.blk != b && e.out.any (fun u => u.loc.sp = .scratch b))))

/-- R84: performs every late store of a block. -/
def performBlock (b : Nat) (s : State) : State := (s.block b).beams.foldl (fun s e => s.performAll b e.1) s

/-- R150: does a lane unit of a block hold a word of which accesses are in flight. -/
def wordsFlying (s : State) (b : Nat) : Bool :=
  (s.block b).beams.any (fun e => (e.2.unitIds.filterMap e.2.unit).any (fun y => (y.held.map (·.flying)).getD false))

/-- R161, R175, R186: a beam ends: its queued regions, units, entries and watch set go, and its allotment returns. Its late stores are still to
be performed. The records of its fragments keep their valid bits (log entry 26, DESIGN CHOICE). -/
def endBeam (b j : Nat) (s : State) : State :=
  let es := (s.beamAt b j).watch
  (s.setBeam b j (fun x => { x with exited := true, regions := [], running := false, uq := [], uqneed := 0, lit := none, shade := none, frags := [], watch := [], spark := .none, woken := false })).unwatch es |>.grantClaims b

/-- R273, R355: a remote access that writes: the dirty log comes first, and parks the access where it is full. -/
def remoteStore (who : ReqWho) (op aop node addr n : Nat) (data : List Byte) (page : Option (Nat × Nat × Nat)) (agent cid : Nat) (s : State)
    (w : Option (Nat × Nat × Nat) := none) (va : Nat := 0) : Rem :=
  if s.dirtyFull page w then .wait (s.parkFull page w)
  else (s.logDirty page agent cid).remote who op aop node addr n data va

/-- Drops the requests of requesters that have gone: those that stand unanswered are still awaited (R328). -/
def dropReqs (tenant : Nat) (p : ReqWho → Bool) (s : State) : State :=
  s.setFab (fun f => { f with reqs := f.reqs.filterMap (fun e => if !p e.2.who then some e else if e.2.answer.isSome then none else some (e.1, { e.2 with who := .gone tenant })) })
/-- Drops every request of a beam that has ended. -/
def forgetBeam (b j : Nat) (s : State) : State :=
  s.dropReqs (s.tenantOf b) (fun w => match w with
    | .scalar x y => x = b && y % 32 = j | .lane x y _ _ => x = b && y = j | .watch x y => x = b && y % 32 = j | _ => false)
/-- Drops every request of a block. -/
def forgetBlock (b : Nat) (s : State) : State :=
  s.dropReqs (s.tenantOf b) (fun w => match w with | .scalar x _ | .lane x _ _ _ | .watch x _ | .commit x => x = b | _ => false)

/-- Forgets the requests of a lane unit, whose word is done. -/
def forgetLane (b j u : Nat) (s : State) : State :=
  s.setFab (fun f => { f with reqs := f.reqs.filter (fun e => match e.2.who with | .lane x y v _ => !(x = b && y = j && v = u) | _ => true) })

/-- R355: forgets the requests of a lane unit that were answered with ERR: the trapped word sends them again. -/
def forgetErr (b j u : Nat) (s : State) : State :=
  s.setFab (fun f => { f with reqs := f.reqs.filter (fun e => match e.2.who, e.2.answer with
    | .lane x y v _, some a => !(x = b && y = j && v = u && a.op = 10) | _, _ => true) })

/-- The issuing beam as a requester; a handler's requests are apart from those of the stream that it interrupted. -/
def whoMe (s : State) : ReqWho := .scalar s.cur.blk (if s.me.inHandler then s.cur.beam + 32 else s.cur.beam)

/-- The scalar instruction is done: the stream goes on at the next word. -/
def sDone (s : State) : State := (s.forget s.whoMe).advance

/-- Is the scalar stream parked on this page already (R159: one fault record per page). -/
def faultedOn (s : State) (page : Nat) : Bool := match s.me.spark with | .fault p _ => p = page | .stores _ (some p) => p = page | .reserved _ (some p) => p = page | _ => false

/-- R159, R269: parks the scalar stream on a page fault, with its one record. -/
def scalarFault {α : Type} (addr page mapping : Nat) (gpa : Option Nat) (agent : Nat) (s : State) : Got α :=
  if s.faultedOn page then .wait (.fault page false) s
  else
    let s := s.tapFault s.cur.blk s.cur.beam addr
    match gpa with
    | some g => .wait (.fault page false) (s.postStage2 s.cur.blk g)
    | none => .wait (.fault page false) (s.postFault s.cur.blk s.cur.beam agent addr mapping)

/-- R161, R219: the beam is killed by an error that it consumed; a handler's ends the block, as its TEXIT would. -/
def killBeam (b j : Nat) (s : State) : State :=
  ((s.endBeam b j).forgetBeam b j).setBlock b (fun k => { k with halt := k.halt.map (fun h => if h.stage = .handler && h.beam = j then { h with stage := .ending } else h) })

/-- R161: the beam consumes an error and is killed. -/
def consumeKill {α : Type} (addr : Nat) (l : Loc) (s : State) : Got α := .kill ((s.postConsumed s.cur.blk s.cur.beam 1 addr 1 (some l)).killBeam s.cur.blk s.cur.beam)

/-- R161, R355: what a remote access of the scalar stream comes to. -/
def sAnswer (kind : Nat) (a : W64) (n : Nat) (l : Loc) (r : Rem) (s : State) : Got (List Byte) :=
  match r with
  | .wait t => .wait (.remote 0) t
  | .err _ => .trap (memCause 8 0 kind true 1 a)
  | .ok bs poison => if poison then s.consumeKill a.toNat l else .done (s.seen s.cur.blk l (bs.take n)) s

/-- R156, R158, R159, R161: a read of `n` bytes by the scalar stream. `kind` 0 load, 3 WATCH; `agent` as the fault
record names it (1 scalar, 3 task instruction). One that has been sent is checked and translated no more (R271). -/
def sReadAs (agent kind : Nat) (a : W64) (n : Nat) (s : State) : Got (List Byte) :=
  let b := s.cur.blk
  let j := s.cur.beam
  match s.asked s.whoMe 1 a.toNat n with
  | some (l, r) => s.sAnswer kind a n l r
  | none =>
  match s.accessCause b j [(0, a)] n kind true with
  | some c => .trap c
  | none =>
    match s.locate b j 0 a false with
    | .trap c => .trap (memCause c 0 kind true 1 a)
    | .fault page mp gpa => s.scalarFault a.toNat page mp gpa agent
    | .ok l _ =>
      match l.sp with
      | .remote node => s.sAnswer kind a n l (s.remote s.whoMe 1 0 node l.addr n [] a.toNat)
      | _ =>
        let s := s.performAt b j none l n
        if s.poisonedAt l n then s.consumeKill a.toNat l else .done (s.view b l n) s

/-- A scalar load. -/
def sRead (a : W64) (n : Nat) (s : State) : Got (List Byte) := s.sReadAs 1 0 a n

/-- R251, R346: a read of a whole range by a task instruction, 8 bytes at a time. -/
def sRange (agent : Nat) (a : W64) : Nat → State → Got (List Byte)
  | 0, s => .done [] s
  | k + 1, s =>
    match s.sReadAs agent 0 a 8 with
    | .done x s' =>
      match sRange agent (a + 8) k s' with
      | .done y s'' => .done (x ++ y) s''
      | .trap c => .trap c
      | .wait p s'' => .wait p s''
      | .kill s'' => .kill s''
    | .trap c => .trap c
    | .wait p s' => .wait p s'
    | .kill s' => .kill s'

/-- R239, R241: a gated store of block `b`: into the gate, and into the signature that `sig` extends. -/
def gateWrite (b : Nat) (l : Loc) (page : Option (Nat × Nat × Nat)) (agent : Nat) (bs : List Byte) (s : State) : State :=
  s.setBlock b (fun k => { k with mirror := k.mirror.map (fun m => { m with gate := gateStore m.gate l page agent bs }) })

/-- R239: would the store open a unit that a full gate has no room for. -/
def gateFull (s : State) (b : Nat) (l : Loc) : Bool :=
  match (s.block b).mirror with
  | some m => m.gate.length ≥ 8192 && !(m.gate.any (fun u => u.loc = { l with addr := l.addr / 8 * 8 }))
  | none => false

/-- R239: a gated store of any number of bytes, unit by unit; none where the gate has no room. -/
def gateBytes (b : Nat) (l : Loc) (page : Option (Nat × Nat × Nat)) (agent : Nat) (bs : List Byte) (s : State) : Option State :=
  (List.range ((l.addr % 8 + bs.length + 7) / 8)).foldl (fun r i => r.bind (fun s =>
    let u := l.addr / 8 * 8 + 8 * i
    let a := max l.addr u
    if s.gateFull b { l with addr := a } then none
    else some (s.gateWrite b { l with addr := a } page agent ((bs.drop (a - l.addr)).take (u + 8 - a))))) (some s)

/-- A store that reaches its home: dirty log, then the bytes and their hits. -/
def store (b agent : Nat) (l : Loc) (page : Option (Nat × Nat × Nat)) (bs : List Byte) (s : State) : State :=
  (s.logDirty page agent (s.cidOf (s.ctxOf b))).poke l bs

/-- A write by the scalar stream: `put` gives the bytes to store from those read (a read-modify-write reads first and
returns what it read; a plain store returns nothing). `agent` as the fault record names it; `op` is the fabric operation that performs it remotely.
A plain store may be left to be performed later (R84), but for one that goes to the own core over the cluster's links (R237). -/
def sWriteAs (agent kind : Nat) (op aop : Nat) (operand : List Byte) (a : W64) (n : Nat) (put : List Byte → List Byte) (s : State) : Got (List Byte) :=
  let b := s.cur.blk
  let j := s.cur.beam
  match s.asked s.whoMe op a.toNat (askSize n operand) with
  | some (l, r) => s.sAnswer kind a n l r
  | none =>
  match s.accessCause b j [(0, a)] n kind true with
  | some c => .trap c
  | none =>
    match s.locate b j 0 a true with
    | .trap c => .trap (memCause c 0 kind true 1 a)
    | .fault page mp gpa => s.scalarFault a.toNat page mp gpa agent
    | .ok l page =>
      if s.gated b l then
        if s.gateFull b l then .trap gateCause
        else
          let bs := put (s.view b l n)
          .done bs ((s.gateWrite b l page 0 bs).setMe (fun x => { x with sig := crc64 x.sig (sigRecord a bs) }))
      else
        match l.sp with
        | .remote node =>
          if s.dirtyFull page (some (b, j, 0)) then .wait .dirty (s.parkWrite b j a.toNat page (b, j, 0))
          else s.sAnswer kind a n l ((s.unpark (b, j, 0)).remoteStore s.whoMe op aop node l.addr n operand page 0 (s.cidOf (s.ctxOf b)) none a.toNat)
        | _ =>
          let s := s.performAt b j none l n
          if kind = 2 && s.poisonedAt l n then s.consumeKill a.toNat l
          else if s.dirtyFull page (some (b, j, 0)) then .wait .dirty (s.parkWrite b j a.toNat page (b, j, 0))
          else
            let old := s.view b l n
            if s.cur.later ≠ 0 && !(aperture a == .cluster && l.sp = .scratch b) then
              .done old (((s.logDirty page 0 (s.cidOf (s.ctxOf b))).setMe (fun x => { x with late := x.late ++ [{ loc := l, data := put old }] })).unpark (b, j, 0))
            else .done old ((s.store b 0 l page (put old)).unpark (b, j, 0))

/-- A scalar store. -/
def sWrite (a : W64) (n : Nat) (x : Nat) (s : State) : Got (List Byte) :=
  s.sWriteAs 1 1 2 0 (toBytes n x) a n (fun _ => toBytes n x)

end State

/-- How a scalar instruction ends: `k` gives the state when its accesses are done; a trap has no effect (`s0`). -/
def Got.finish {α : Type} (s0 : State) (g : Got α) (k : α → State → State) : State :=
  match g with
  | .done x s => k x s
  | .trap c => (((s0.forget s0.whoMe).forget (.watch s0.cur.blk s0.cur.beam)).setMe (fun x => { x with spark := x.spark.unsent })).trapMe c
  | .wait p s => s.park p
  | .kill s => s

namespace State

/-- R83 edge 4: a region-waiting instruction: `k` once every earlier region has ended; a handler does not wait (R89). -/
def afterRegions (k : State → State) (s : State) : State :=
  if s.me.regionsDone || s.me.inHandler then k s else s.park .region

/-- R240: is a location, by its address, in the block's own scratch allocation. -/
def ownScratch (s : State) (b : Nat) (a : W64) : Bool :=
  match aperture a with
  | .scratch => true
  | .cluster => s.groupBlock b (clusterCore a) == some b
  | _ => false

/-- R240: an instruction that the MIRROR flag masks for the issuing block; `op` is the value of its detail (log entry 29, DEDUCED). -/
def notMirrored (op : Nat) (masked : Bool) (k : State → State) (s : State) : State :=
  if s.myBlock.mirror.isSome && masked then s.trapMe (illegal 2 3 0 op) else k s

/-- R324: an instruction of a feature that the tenant's mask `fmask` masks by a bit. -/
def unmasked (op bit : Nat) (k : State → State) (s : State) : State :=
  if (s.tenant (s.tenantOf s.cur.blk)).fmask.getLsbD bit then s.trapMe (illegal 2 3 0 op) else k s

/-- R220: an instruction, by its opcode, that a handler may not issue (log entry 29, DEDUCED). -/
def notInHandler (op : Nat) (k : State → State) (s : State) : State :=
  if s.me.inHandler then s.trapMe (illegal 9 3 0 op) else k s

end State
end Sys2Proof.Machine
end

