-- ==== Sys2Proof/Machine/Flags.lean ====
section
/-! DEFINITION. Every condition the instructions compute, and the integer functions of the lane and scalar streams. -/

namespace Sys2Proof.Machine

/-- R88: the conditions of SB on 64-bit values. -/
def condHolds (c : Cond) (a b : W64) : Bool :=
  match c with
  | .eq => a == b | .ne => a != b | .lt => a.slt b | .ge => !a.slt b | .ltu => a.ult b | .geu => !a.ult b

/-- R288: the conditions of GSKIP on 32-bit values. -/
def condHolds32 (c : Cond) (a b : W32) : Bool :=
  match c with
  | .eq => a == b | .ne => a != b | .lt => a.slt b | .ge => !a.slt b | .ltu => a.ult b | .geu => !a.ult b

/-- R103: the conditions of ICMP. -/
def icmpHolds (c : Nat) (a b : W32) : Bool :=
  match c with
  | 0 => a == b | 1 => a != b | 2 => a.slt b | 3 => a.sle b | 4 => b.slt a | 5 => b.sle a
  | 6 => a.ult b | 7 => a.ule b | 8 => b.ult a | _ => b.ule a

/-- R111: the conditions of FCMP. -/
def fcmpHolds (c : Nat) (a b : FVal) : Bool :=
  let un := a.isNan || b.isNan
  let k := FVal.cmp a b
  match c with
  | 0 => !un && k = 0 | 1 => un || k ≠ 0 | 2 => !un && k < 0 | 3 => !un && k ≤ 0 | 4 => !un && k > 0 | 5 => !un && k ≥ 0
  | 6 => un | _ => !un

/-- R112: the class mask of an FP32 code. -/
def fclassMask (code : Nat) : Nat :=
  let neg := code / 2 ^ 31 % 2 = 1
  let mag := code % 2 ^ 31
  if mag > 0x7F800000 then 1
  else if mag = 0x7F800000 then (if neg then 2 else 256)
  else if mag = 0 then (if neg then 16 else 32)
  else if mag < 0x800000 then (if neg then 8 else 64)
  else (if neg then 4 else 128)

/-- Leading zero bits of a `w`-bit value. -/
def clzN (w : Nat) (x : Nat) : Nat := if x = 0 then w else w - 1 - Nat.log2 x
/-- Number of set bits. -/
def popN (w : Nat) (x : Nat) : Nat := ((List.range w).filter (fun i => x.testBit i)).length

/-- R86, R151, R157: the read-modify-write operations on `n`-bit numbers. -/
def aopApply (op : Aop) (n : Nat) (old y : Nat) : Nat :=
  let m := 2 ^ n
  let a := old % m
  let b := y % m
  let sg (x : Nat) : Int := if x < m / 2 then (x : Int) else (x : Int) - m
  match op with
  | .add => (a + b) % m
  | .and => a &&& b
  | .or => a ||| b
  | .xor => a ^^^ b
  | .min => if sg a ≤ sg b then a else b
  | .max => if sg a ≤ sg b then b else a
  | .minu => min a b
  | .maxu => max a b
  | .swap => b

/-- Bits and bytes of each width. -/
def nbits : Width → Nat
  | .w8 => 8 | .w16 => 16 | .w32 => 32 | .w64 => 64
def nbytes (w : Width) : Nat := nbits w / 8

/-- Sign extension of the low `n` bits of a number to 64 bits (R35). -/
def sext64 (n x : Nat) : W64 := BitVec.ofInt 64 (BitVec.ofNat n x).toInt
/-- The signed value of the low `n` bits. -/
def signedOf (n x : Nat) : Int := (BitVec.ofNat n x).toInt
/-- A 32-bit word from an integer. -/
def w32 (x : Int) : W32 := BitVec.ofInt 32 x

end Sys2Proof.Machine
end

