-- ==== Sys2Proof/Machine/Operands.lean ====
section
/-! DEFINITION. Every operand form of the lane stream: sources (R51, R96), address bases (R147), register pairs (R149),
destinations, floating-point modifiers (R99), and the shape of a per-lane operation. -/

namespace Sys2Proof.Machine

/-- R37: the fields of an operation in pop order. -/
inductive Field where
  | d | a | b | c
  deriving DecidableEq, Repr
def Field.num : Field → Nat
  | .d => 0 | .a => 1 | .b => 2 | .c => 3
/-- The code in a field. -/
def Field.code (f : Field) (x : LaneOp) : Nat :=
  match f with
  | .d => x.d.toNat | .a => x.a.toNat | .b => x.b.toNat | .c => x.c.toNat

namespace State

/-- R96: what an operand code yields in lane `i`; `k` is the field's number, for the entry popped for it. -/
def operand (s : State) (code k : Nat) (imm : W32) (i : Nat) : W32 :=
  if code < 320 then s.rv code i
  else if code = 320 then (s.cur.uq.get k 0).setWidth 32
  else if code = 321 then BitVec.ofNat 32 i
  else if code = 322 then 0
  else if code = 323 then imm
  else if code < 332 then (s.rw (code - 324)).setWidth 32
  else if code = 332 then s.rix i
  else if code < 344 then (if (s.rp (code - 336)).getLsbD i then 1 else 0)
  else s.rv ((s.rix i).toNat + (code - 384)) i

/-- R96: a source field in lane `i`. -/
def src (s : State) (x : LaneOp) (f : Field) (i : Nat) : W32 := s.operand (f.code x) f.num x.imm i

/-- R49: the third source: field c in the long form, the old destination in a short slot. -/
def src3 (s : State) (x : LaneOp) (i : Nat) : W32 := if x.long then s.src x .c i else s.operand x.d.toNat 0 x.imm i

/-- R147: a 64-bit base in lane `i`. -/
def base (s : State) (x : LaneOp) (f : Field) (i : Nat) : W64 :=
  let code := f.code x
  if code < 320 then (s.rv (code + 1) i).setWidth 64 <<< 32 ||| (s.rv code i).setWidth 64
  else if code = 320 then s.cur.uq.get f.num 0
  else if code < 332 && 324 ≤ code then s.rw (code - 324)
  else 0

/-- R149, R151: a value of 64 bits: a register pair, all of an entry or w register, else zero-extended. -/
def src64 (s : State) (x : LaneOp) (f : Field) (i : Nat) : W64 :=
  let code := f.code x
  if code < 320 || code = 320 || (324 ≤ code && code < 332) then s.base x f i else (s.src x f i).setWidth 64

/-- R51, R96: writes a class V destination in lane `i`; `zero` discards. -/
def writeV (code i : Nat) (v : W32) (s : State) : State :=
  if code < 320 then s.wv code i v
  else if code = 332 then s.wix i v
  else if 384 ≤ code then s.wv ((s.rix i).toNat + (code - 384)) i v
  else s

/-- R149: writes a pair destination in lane `i`. -/
def writePair (code i : Nat) (v : W64) (s : State) : State :=
  if code < 320 then (s.wv code i (v.setWidth 32)).wv (code + 1) i ((v >>> 32).setWidth 32) else s

/-- Sets class V destination `code` to `f i` in every lane of `m`: the sources of `f` are read before. -/
def writeLanes (code : Nat) (m : W32) (f : Nat → W32) (s : State) : State :=
  (lanesOf m).foldl (fun t i => t.writeV code i (f i)) s

/-- A per-lane operation with a class V destination (R96). -/
def mapV (x : LaneOp) (f : State → Nat → W32) (s : State) : State := (s.writeLanes x.d.toNat s.cur.act (f s)).flow .go

/-- A per-lane operation with a class P destination (R96). -/
def mapP (x : LaneOp) (m : W32) (f : State → Nat → Bool) (s : State) : State :=
  ((lanesOf m).foldl (fun t i => t.wp (x.d.toNat - 336) i (f s i)) s).flow .go

/-- R66, R71: the governing `fmode` fields. -/
def fzi (s : State) : Bool := s.cur.fmode.getLsbD 2
def fzo (s : State) : Bool := s.cur.fmode.getLsbD 3
/-- R67, R99: the rounding mode of an operation: its static modifier, else `fmode.rm`. -/
def mode (s : State) (x : LaneOp) : Rm := if x.mb 4 3 = 0 then Rm.ofCode (s.cur.fmode.toNat % 4) else Rm.ofCode (x.mb 4 3)

/-- R99: a modified FP32 source code: fzi, abs, neg, in this order. -/
def fpCode (s : State) (raw : W32) (abs neg : Bool) : Nat :=
  let c := FVal.flushIn .f32 s.fzi raw.toNat
  let c := if abs then c % 2 ^ 31 else c
  if neg then (c + 2 ^ 31) % 2 ^ 32 else c
def fa (s : State) (x : LaneOp) (i : Nat) : Nat := s.fpCode (s.src x .a i) (x.mb 1 1 == 1) (x.mb 0 1 == 1)
def fb (s : State) (x : LaneOp) (i : Nat) : Nat := s.fpCode (s.src x .b i) (x.mb 3 1 == 1) (x.mb 2 1 == 1)
def fc (s : State) (x : LaneOp) (i : Nat) : Nat := s.fpCode (s.src x .c i) (x.mb 8 1 == 1) (x.mb 7 1 == 1)

/-- R67 to R70: an exact value rounded to FP32 under the operation's mode. -/
def round32 (s : State) (x : LaneOp) (v : FVal) : W32 := BitVec.ofNat 32 (FVal.encode .f32 (s.mode x) s.fzo v)

/-- R147: the address of a lane from a base and an offset field. -/
def laneAddr (s : State) (x : LaneOp) (base : Field) (off : Option Field) (i : Nat) : W64 :=
  s.base x base i + (match off with | some f => (s.src x f i).setWidth 64 | none => 0)

/-- R97: the register number that an indirect field names in a lane. -/
def indirect (s : State) (code i : Nat) : Nat := (s.rix i).toNat + (code - 384)

end State

/-- R97, R107: the per-lane register numbers of a word's indirect fields, as (field, number). -/
def indirectFields (s : State) (i : Instr) (lane : Nat) : List (Nat × Nat) :=
  match i.laneSpec, i.laneOp with
  | some sp, some x =>
    let one (f : Field) (r : Role) : List (Nat × Nat) :=
      if r == .annot || r == .unused then []
      else if 384 ≤ f.code x && f.code x ≤ 447 then [(f.num, s.indirect (f.code x) lane)]
      else if r == .vbase then [(f.num, f.code x + (s.src x .b lane).toNat)]
      else []
    one .d sp.d ++ one .a sp.a ++ one .b sp.b ++ one .c sp.c
  | _, _ => []

/-- R97: the first field with an index at or beyond the allotment in a lane of `act`, as a REG.BOUNDS cause (log entry 28, DEDUCED),
whose index is taken modulo 2^32 (log entry 71, DESIGN CHOICE). Of several fields that offend, the first in the order d, a, b, c is
named, with its own lanes; of two slots, slot A's (log entry 77, DESIGN CHOICE). -/
def boundsCause (s : State) (i : Instr) : Option Cause :=
  let lanes := lanesOf s.cur.act
  let bad := lanes.map (fun l => (l, (indirectFields s i l).filter (fun e => e.2 ≥ s.me.regCount)))
  [0, 1, 2, 3].findSome? (fun f =>
    let off := bad.filterMap (fun e => (e.2.find? (fun p => p.1 = f)).map (fun p => (e.1, p.2)))
    match off with
    | [] => none
    | (_, n) :: _ => some { grp := 4, code := 1, d0 := f, d1 := maskOf (fun k => off.any (fun e => e.1 = k)), d2 := BitVec.ofNat 32 n })

/-- R37: the fields of an operation that name `uq` as a source, in pop order. -/
def uqFields (i : Instr) : List Nat :=
  match i.laneSpec, i.laneOp with
  | some sp, some x =>
    let one (f : Field) (r : Role) : List Nat :=
      match r with
      | .src | .srcPair | .base | .sel | .scale | .fenceObj => if f.code x = 320 then [f.num] else []
      | _ => []
    one .d sp.d ++ one .a sp.a ++ one .b sp.b ++ one .c sp.c
  | _, _ => []

end Sys2Proof.Machine
end

