-- ==== Sys2Proof/Machine/LaneInt.lean ====
section
/-! DEFINITION. The integer operations of the lane stream (R100 to R108) and LCLOCK (R122). -/

namespace Sys2Proof.Machine

/-- A two-source operation (R100). -/
def lane2 (x : LaneOp) (f : W32 → W32 → W32) (s : State) : Out := .next (s.mapV x (fun s i => f (s.src x .a i) (s.src x .b i)))
/-- A one-source operation (R100). -/
def lane1 (x : LaneOp) (f : W32 → W32) (s : State) : Out := .next (s.mapV x (fun s i => f (s.src x .a i)))
/-- A three-source operation: the third is field c, or the old destination in a short slot (R49). -/
def lane3 (x : LaneOp) (f : W32 → W32 → W32 → W32) (s : State) : Out := .next (s.mapV x (fun s i => f (s.src x .a i) (s.src x .b i) (s.src3 x i)))

/-- R100: the bits of a number reversed. -/
def brev32 (a : W32) : W32 := BitVec.ofNat 32 ((List.range 32).foldl (fun n j => if a.getLsbD j then n + 2 ^ (31 - j) else n) 0)

/-- R101: the truth table `t` applied to each bit position. -/
def lop3 (t : Nat) (a b c : W32) : W32 :=
  let v (x : W32) (j : Nat) : Nat := if x.getLsbD j then 1 else 0
  BitVec.ofNat 32 ((List.range 32).foldl (fun n j => if t.testBit (4 * v a j + 2 * v b j + v c j) then n + 2 ^ j else n) 0)

/-- R102: 64 bits from two registers. -/
def pair64 (hi lo : W32) : W64 := hi.setWidth 64 <<< 32 ||| lo.setWidth 64

/-- R105: position and length of a bit field. -/
def fieldPos (b : W32) : Nat := b.toNat % 256
def fieldLen (b : W32) : Nat :=
  let pos := b.toNat % 256
  let len := b.toNat / 256 % 256
  if pos ≥ 32 || len = 0 then 0 else min len (32 - pos)

/-- R105 BFX. -/
def bfxVal (signed : Bool) (a b : W32) : W32 :=
  let n := fieldLen b
  let f := a.toNat / 2 ^ fieldPos b % 2 ^ n
  if n = 0 then 0 else if signed then BitVec.ofInt 32 (signedOf n f) else BitVec.ofNat 32 f
/-- R105 BFI. -/
def bfiVal (a b c : W32) : W32 :=
  let f : W32 := BitVec.ofNat 32 ((2 ^ fieldLen b - 1) * 2 ^ fieldPos b)
  ((a <<< fieldPos b) &&& f) ||| (c &&& ~~~f)

/-- R106: result byte `j`. -/
def permByte (a b : W32) (j : Nat) : Nat :=
  let s := b.toNat / 16 ^ j % 16
  let y := a.toNat / 256 ^ (s % 4) % 256
  if s ≥ 8 then 0 else if s < 4 then y else if y ≥ 128 then 255 else 0

/-- R100 IADD. -/
def execIadd (x : LaneOp) (s : State) : Out := lane2 x (fun a b => a + b) s
/-- R100 ISUB. -/
def execIsub (x : LaneOp) (s : State) : Out := lane2 x (fun a b => a - b) s
/-- R100 IMUL. -/
def execImul (x : LaneOp) (s : State) : Out := lane2 x (fun a b => a * b) s
/-- R100 IMULH. -/
def execImulh (x : LaneOp) (s : State) : Out := lane2 x (fun a b => w32 (a.toInt * b.toInt / 2 ^ 32)) s
/-- R100 IMULHU. -/
def execImulhu (x : LaneOp) (s : State) : Out := lane2 x (fun a b => BitVec.ofNat 32 (a.toNat * b.toNat / 2 ^ 32)) s
/-- R100 IMAD. -/
def execImad (x : LaneOp) (s : State) : Out := lane3 x (fun a b c => a * b + c) s
/-- R100 IMIN. -/
def execImin (x : LaneOp) (s : State) : Out := lane2 x (fun a b => if a.slt b then a else b) s
/-- R100 IMAX. -/
def execImax (x : LaneOp) (s : State) : Out := lane2 x (fun a b => if b.slt a then a else b) s
/-- R100 IMINU. -/
def execIminu (x : LaneOp) (s : State) : Out := lane2 x (fun a b => if a.ult b then a else b) s
/-- R100 IMAXU. -/
def execImaxu (x : LaneOp) (s : State) : Out := lane2 x (fun a b => if b.ult a then a else b) s
/-- R100 IABS: the most negative number stays, or saturates with .sat. -/
def execIabs (x : LaneOp) (s : State) : Out := lane1 x (fun a => if a = 0x80000000 then (if x.mb 0 1 = 1 then 0x7FFFFFFF else a) else if a.getLsbD 31 then -a else a) s
/-- R101 ILOP. -/
def execIlop (x : LaneOp) (s : State) : Out := lane3 x (lop3 (x.mb 0 8)) s
/-- R100 ISHL. -/
def execIshl (x : LaneOp) (s : State) : Out := lane2 x (fun a b => if 32 ≤ b.toNat then 0 else a <<< b.toNat) s
/-- R100 ISHR. -/
def execIshr (x : LaneOp) (s : State) : Out := lane2 x (fun a b => if 32 ≤ b.toNat then 0 else a >>> b.toNat) s
/-- R100 ISRA: 32 copies of the sign past the width. -/
def execIsra (x : LaneOp) (s : State) : Out := lane2 x (fun a b => a.sshiftRight (min b.toNat 31)) s
/-- R102 IFSH. -/
def execIfsh (x : LaneOp) (s : State) : Out := lane3 x (fun a b c => if x.mb 0 1 = 1 then (pair64 a b <<< (c.toNat % 32) >>> 32).setWidth 32 else (pair64 a b >>> (c.toNat % 32)).setWidth 32) s
/-- R103 ICMP. -/
def execIcmp (x : LaneOp) (s : State) : Out := .next (s.mapP x s.cur.act (fun s i => icmpHolds (x.mb 0 4) (s.src x .a i) (s.src x .b i)))
/-- R104 ISEL. -/
def execIsel (x : LaneOp) (s : State) : Out := lane3 x (fun a b c => if c ≠ 0 then a else b) s
/-- R100 POPC. -/
def execPopc (x : LaneOp) (s : State) : Out := lane1 x (fun a => BitVec.ofNat 32 (popN 32 a.toNat)) s
/-- R100 CLZ. -/
def execClz (x : LaneOp) (s : State) : Out := lane1 x (fun a => BitVec.ofNat 32 (clzN 32 a.toNat)) s
/-- R100 BREV. -/
def execBrev (x : LaneOp) (s : State) : Out := lane1 x brev32 s
/-- R105 BFX. -/
def execBfx (x : LaneOp) (s : State) : Out := lane2 x (bfxVal (x.mb 0 1 == 1)) s
/-- R105 BFI. -/
def execBfi (x : LaneOp) (s : State) : Out := lane3 x bfiVal s
/-- R106 BPERM. -/
def execBperm (x : LaneOp) (s : State) : Out := lane2 x (fun a b => BitVec.ofNat 32 (permByte a b 0 + 2 ^ 8 * permByte a b 1 + 2 ^ 16 * permByte a b 2 + 2 ^ 24 * permByte a b 3)) s
/-- R100 IMOV. -/
def execImov (x : LaneOp) (s : State) : Out := lane1 x (fun a => a) s
/-- R107 IMOVX: `.g` reads v[t + b], `.s` writes it; the index is in bounds (R97). -/
def execImovx (x : LaneOp) (s : State) : Out :=
  if x.mb 0 1 = 1 then
    .next (((lanesOf s.cur.act).foldl (fun t i => t.wv (x.d.toNat + (s.src x .b i).toNat) i (s.src x .a i)) s).flow .go)
  else .next (s.mapV x (fun s i => s.rv (x.a.toNat + (s.src x .b i).toNat) i))
/-- R108 IADDS: `.s` signed, `.u` unsigned. -/
def execIadds (x : LaneOp) (s : State) : Out :=
  lane2 x (fun a b => if x.mb 0 1 = 1 then BitVec.ofNat 32 (min (a.toNat + b.toNat) (2 ^ 32 - 1)) else w32 (satI32 (a.toInt + b.toInt))) s
/-- R122 LCLOCK: one sample for every lane; a mirror reads its own clocks (R238). -/
def execLclock (x : LaneOp) (s : State) : Out :=
  .next (s.mapV x (fun s _ =>
    let c := s.cyclesOf (s.coreOf s.cur.blk)
    match x.mb 0 2 with
    | 0 => c.setWidth 32
    | 1 => (c >>> 32).setWidth 32
    | 2 => s.reftime.setWidth 32
    | _ => (s.reftime >>> 32).setWidth 32))

end Sys2Proof.Machine
end

