-- ==== Sys2Proof/Machine/LaneFp.lean ====
section
/-! DEFINITION. The floating-point, conversion, dot-product and special-function operations of the lane stream
(R109 to R121). -/

namespace Sys2Proof.Machine

/-- An FP32 operation: the exact result of the modified sources under the mode, rounded once (R109). -/
def lane32 (x : LaneOp) (f : State → Nat → Rm → FVal) (s : State) : Out :=
  .next (s.mapV x (fun s i => s.round32 x (f s i (s.mode x))))

/-- The values of the modified FP32 sources. -/
def State.va (s : State) (x : LaneOp) (i : Nat) : FVal := FVal.decode .f32 (s.fa x i)
def State.vb (s : State) (x : LaneOp) (i : Nat) : FVal := FVal.decode .f32 (s.fb x i)
def State.vc (s : State) (x : LaneOp) (i : Nat) : FVal := FVal.decode .f32 (s.fc x i)

/-- R109 FADD. -/
def execFadd (x : LaneOp) (s : State) : Out := lane32 x (fun s i m => FVal.add m (s.va x i) (s.vb x i)) s
/-- R109 FSUB. -/
def execFsub (x : LaneOp) (s : State) : Out := lane32 x (fun s i m => FVal.add m (s.va x i) (s.vb x i).negate) s
/-- R109 FMUL. -/
def execFmul (x : LaneOp) (s : State) : Out := lane32 x (fun s i _ => FVal.mul (s.va x i) (s.vb x i)) s
/-- R109 FFMA: the product is not rounded. -/
def execFfma (x : LaneOp) (s : State) : Out := lane32 x (fun s i m => FVal.add m (FVal.mul (s.va x i) (s.vb x i)) (s.vc x i)) s

/-- R110: one of two codes of a format, or its canonical NaN. -/
def fminmaxOf (f : Fmt) (isMax : Bool) (a b : Nat) : Nat :=
  let x := FVal.decode f a
  let y := FVal.decode f b
  if x.isNan then (if y.isNan then f.nan else b)
  else if y.isNan then a
  else
    let k := FVal.cmp x y
    if k = 0 then (if x.isNeg = isMax then b else a)
    else if (k < 0) = (isMax = false) then a else b

/-- R110: one of two modified FP32 codes. -/
def fminmax (isMax : Bool) (a b : Nat) : Nat := fminmaxOf .f32 isMax a b

/-- R110 FMIN. -/
def execFmin (x : LaneOp) (s : State) : Out :=
  .next (s.mapV x (fun s i => BitVec.ofNat 32 (FVal.flushIn .f32 s.fzo (fminmax false (s.fa x i) (s.fb x i)))))
/-- R110 FMAX. -/
def execFmax (x : LaneOp) (s : State) : Out :=
  .next (s.mapV x (fun s i => BitVec.ofNat 32 (FVal.flushIn .f32 s.fzo (fminmax true (s.fa x i) (s.fb x i)))))
/-- R111 FCMP. -/
def execFcmp (x : LaneOp) (s : State) : Out := .next (s.mapP x s.cur.act (fun s i => fcmpHolds (x.mb 4 3) (s.va x i) (s.vb x i)))
/-- R112 FCLASS. -/
def execFclass (x : LaneOp) (s : State) : Out := .next (s.mapV x (fun s i => BitVec.ofNat 32 (fclassMask (s.fa x i))))

/-- R113: the format of a packed-half operation. -/
def halfFmt (x : LaneOp) : Fmt := if x.mb 3 1 = 1 then .bf16 else .f16
/-- R113: element `j` of a source, with its negation. -/
def halfEl (s : State) (f : Fmt) (neg : Bool) (raw : W32) (j : Nat) : FVal :=
  let v := FVal.decode f (FVal.flushIn f s.fzi (raw.toNat / 2 ^ (16 * j) % 2 ^ 16))
  if neg then v.negate else v
/-- R113: a packed-half operation, each element rounded once. -/
def laneHalf (x : LaneOp) (f : Rm → FVal → FVal → FVal → FVal) (s : State) : Out :=
  .next (s.mapV x (fun s i =>
    let el (j : Nat) : Nat :=
      FVal.encode (halfFmt x) (s.mode x) s.fzo (f (s.mode x) (halfEl s (halfFmt x) (x.mb 0 1 == 1) (s.src x .a i) j)
        (halfEl s (halfFmt x) (x.mb 1 1 == 1) (s.src x .b i) j) (halfEl s (halfFmt x) (x.mb 2 1 == 1) (s.src x .c i) j))
    BitVec.ofNat 32 (el 0 + 2 ^ 16 * el 1)))
/-- R113 HADD2. -/
def execHadd2 (x : LaneOp) (s : State) : Out := laneHalf x (fun m a b _ => FVal.add m a b) s
/-- R113 HMUL2. -/
def execHmul2 (x : LaneOp) (s : State) : Out := laneHalf x (fun _ a b _ => FVal.mul a b) s
/-- R113 HFMA2. -/
def execHfma2 (x : LaneOp) (s : State) : Out := laneHalf x (fun m a b c => FVal.add m (FVal.mul a b) c) s

/-- R114: the floating-point format of a code; `none` for s32 and u32. -/
def cvtFmt : Nat → Option Fmt
  | 0 => some .f32 | 1 => some .f16 | 2 => some .bf16 | 3 => some .e4m3 | 4 => some .e5m2 | 5 => some .e2m1 | _ => none
/-- Bits of an element. -/
def cvtWidth (k : Nat) : Nat := match cvtFmt k with | some f => f.width | none => 32
/-- R115: the value of a source code. -/
def cvtRead (k : Nat) (fzi : Bool) (code : Nat) : FVal :=
  match cvtFmt k with
  | some f => FVal.decode f (FVal.flushIn f fzi code)
  | none => FVal.ofInt (if k = 6 then signedOf 32 code else code) 0 false
/-- R115: the code of a value in the destination format. -/
def cvtWrite (k : Nat) (rm : Rm) (fzo : Bool) (v : FVal) : Nat :=
  match cvtFmt k with
  | some f => FVal.encode f rm fzo v
  | none => if k = 6 then (w32 (FVal.toInt rm (-2147483648) 2147483647 v)).toNat else (FVal.toInt rm 0 4294967295 v).toNat
/-- R115 CVT. -/
def execCvt (x : LaneOp) (s : State) : Out :=
  .next (s.mapV x (fun s i =>
    let n := cvtWidth (x.mb 7 3)
    let e := (s.src x .b i).toNat % 8 % (32 / n)
    BitVec.ofNat 32 (cvtWrite (x.mb 0 3) (s.mode x) s.fzo (cvtRead (x.mb 7 3) s.fzi ((s.src x .a i).toNat / 2 ^ (n * e) % 2 ^ n)))))

/-- R116, R117: element width. -/
def packWidth (x : LaneOp) : Nat := match x.mb 0 2 with | 0 => 16 | 1 => 8 | _ => 4
/-- R116: the narrowing of b. -/
def narrow (n cv : Nat) (b : W32) : Nat :=
  match cv with
  | 0 => b.toNat % 2 ^ n
  | 1 => (BitVec.ofInt n (max (-(2 ^ (n - 1) : Int)) (min (2 ^ (n - 1) - 1) b.toInt))).toNat
  | _ => min b.toNat (2 ^ n - 1)
/-- R116 PACK. -/
def execPack (x : LaneOp) (s : State) : Out :=
  lane2 x (fun a b => (a <<< packWidth x) ||| BitVec.ofNat 32 (narrow (packWidth x) (x.mb 2 2) b)) s
/-- R117 UNPK. -/
def execUnpk (x : LaneOp) (s : State) : Out :=
  lane2 x (fun a b =>
    let n := packWidth x
    let v := a.toNat / 2 ^ (n * (b.toNat % 8 % (32 / n))) % 2 ^ n
    if x.mb 2 1 = 1 then w32 (signedOf n v) else BitVec.ofNat 32 v) s

/-- R118: the formats of CVTS with the value of their largest finite magnitude. -/
def cvtsFmt (x : LaneOp) : Fmt := match x.mb 0 2 with | 0 => .e4m3 | 1 => .e5m2 | _ => .e2m1
/-- The magnitude of a value. -/
def FVal.mag (v : FVal) : FVal := if v.isNeg then v.negate else v
/-- The larger of two magnitudes. -/
def FVal.maxMag (a b : FVal) : FVal := if FVal.cmp a b < 0 then b else a
/-- Finite magnitudes of a list, the largest, or zero. -/
def amaxOf (vs : List FVal) : FVal :=
  (vs.filterMap (fun v => match v with | .fin _ m e => some (FVal.fin false m e) | _ => none)).foldl FVal.maxMag (.zero false)
/-- `v ≤ F 2^k`. -/
def leScaled (f : Fmt) (v : FVal) (k : Int) : Bool := FVal.cmp v (FVal.scale k (FVal.decode f f.maxFin)) ≤ 0
/-- R118: the block exponent. -/
def blockExp (f : Fmt) (amax : FVal) : Nat :=
  if amax == .zero false then 127 else ((List.range 255).find? (fun (e : Nat) => leScaled f amax ((e : Int) - 127))).getD 254

/-- R118: what lane `i` receives, where `xs` gives the values of the lanes of its block in live(act). -/
def cvtsLane (f : Fmt) (rm : Rm) (fzo : Bool) (xs : List (Nat × FVal)) (i : Nat) (x : FVal) : W32 :=
  if xs.any (fun e => e.2.isNan) then BitVec.ofNat 32 (255 * 2 ^ 16)
  else
    let e := blockExp f (amaxOf (xs.map (·.2)))
    let micro (q : Nat) : Bool := leScaled f (amaxOf ((xs.filter (fun p => p.1 % 16 / 2 = q)).map (·.2))) ((e : Int) - 128)
    let bits := (List.range 8).foldl (fun n q => if micro q then n + 2 ^ q else n) 0
    let m : Int := if micro (i % 16 / 2) then 1 else 0
    BitVec.ofNat 32 (bits * 2 ^ 24 + e * 2 ^ 16 + FVal.encode f rm fzo (FVal.scale (-((e : Int) - 127 - m)) x))
/-- R118 CVTS. -/
def execCvts (x : LaneOp) (s : State) : Out :=
  .next (s.mapV x (fun s i =>
    let val (k : Nat) : FVal := FVal.decode .f32 (FVal.flushIn .f32 s.fzi (s.src x .a k).toNat)
    let block := (lanesOf s.cur.act).filter (fun k => k / 16 = i / 16)
    cvtsLane (cvtsFmt x) (s.mode x) s.fzo (block.map (fun k => (k, val k))) i (val i)))

/-- R119: the sum of the products of `n`-bit elements. -/
def idpSum (n : Nat) (a b : W32) : Int :=
  (List.range (32 / n)).foldl (fun g j => g + signedOf n (a.toNat / 2 ^ (n * j)) * signedOf n (b.toNat / 2 ^ (n * j))) 0
/-- R119 IDP4. -/
def execIdp4 (x : LaneOp) (s : State) : Out := lane3 x (fun a b c => w32 (satI32 (c.toInt + idpSum 4 a b))) s
/-- R119 IDP8. -/
def execIdp8 (x : LaneOp) (s : State) : Out := lane3 x (fun a b c => w32 (satI32 (c.toInt + idpSum 8 a b))) s

/-- R120: the exact products of the elements of two registers. -/
def fdpProducts (n : Nat) (fa fb : Fmt) (a b : W32) : List FVal :=
  (List.range (32 / n)).map (fun j => FVal.mul (FVal.decode fa (a.toNat / 2 ^ (n * j) % 2 ^ n)) (FVal.decode fb (b.toNat / 2 ^ (n * j) % 2 ^ n)))
/-- R120: one rounding of c plus the group. -/
def laneFdp (n : Nat) (fa fb : Fmt) (x : LaneOp) (s : State) : Out :=
  lane32 x (fun s i m =>
    FVal.add m (FVal.decode .f32 (FVal.flushIn .f32 s.fzi (s.src x .c i).toNat)) (FVal.group m (fdpProducts n fa fb (s.src x .a i) (s.src x .b i)))) s
/-- R120: the FP8 formats. -/
def fp8Fmt (k : Nat) : Fmt := if k = 1 then .e5m2 else .e4m3
/-- R120 FDP8. -/
def execFdp8 (x : LaneOp) (s : State) : Out := laneFdp 8 (fp8Fmt (x.mb 0 1)) (fp8Fmt (x.mb 1 1)) x s
/-- R120 FDP4. -/
def execFdp4 (x : LaneOp) (s : State) : Out := laneFdp 4 .e2m1 .e2m1 x s

/-- R121: a special function, by its number. -/
def laneSfu (k : Nat) (x : LaneOp) (s : State) : Out := lane32 x (fun s i _ => sfuExact k (s.va x i)) s
/-- R121 FRCP. -/
def execFrcp (x : LaneOp) (s : State) : Out := laneSfu 0 x s
/-- R121 FRSQ. -/
def execFrsq (x : LaneOp) (s : State) : Out := laneSfu 1 x s
/-- R121 FSQRT. -/
def execFsqrt (x : LaneOp) (s : State) : Out := laneSfu 2 x s
/-- R121 FEXP2. -/
def execFexp2 (x : LaneOp) (s : State) : Out := laneSfu 3 x s
/-- R121 FLOG2. -/
def execFlog2 (x : LaneOp) (s : State) : Out := laneSfu 4 x s
/-- R121 FSIN. -/
def execFsin (x : LaneOp) (s : State) : Out := laneSfu 5 x s
/-- R121 FCOS. -/
def execFcos (x : LaneOp) (s : State) : Out := laneSfu 6 x s
/-- R121 FTANH. -/
def execFtanh (x : LaneOp) (s : State) : Out := laneSfu 7 x s

end Sys2Proof.Machine
end

