-- ==== Sys2Proof/Machine/Cross.lean ====
section
/-! DEFINITION. Cross-lane words (R134 to R144): they combine values within the tiles of the beam, in logical lanes. -/

namespace Sys2Proof.Machine
namespace State

/-- R134: the lanes of lane `i`'s tile that are in live(act), ascending. -/
def tileLanes (s : State) (i : Nat) : List Nat := (lanesOf s.cur.act).filter (fun j => j / s.me.tile = i / s.me.tile)

/-- R136: identity and combining of an operation of REDUX and SCAN. -/
def crossId (op : Nat) : W32 :=
  match op with
  | 0 => 0 | 1 => 0x7FFFFFFF | 2 => 0x80000000 | 3 => 0xFFFFFFFF | 4 => 0 | 5 => 0xFFFFFFFF | 6 => 0 | 7 => 0
  | 8 => 0x80000000 | 9 => 0x7F800000 | _ => 0xFF800000
def crossOp (s : State) (op : Nat) (a b : W32) : W32 :=
  let fl (x : W32) : Nat := FVal.flushIn .f32 s.fzi x.toNat
  let out (n : Nat) : W32 := BitVec.ofNat 32 (FVal.flushIn .f32 s.fzo n)
  let rm := Rm.ofCode (s.cur.fmode.toNat % 4)
  match op with
  | 0 => a + b
  | 1 => if a.slt b then a else b
  | 2 => if b.slt a then a else b
  | 3 => if a.ult b then a else b
  | 4 => if b.ult a then a else b
  | 5 => a &&& b
  | 6 => a ||| b
  | 7 => a ^^^ b
  | 8 => BitVec.ofNat 32 (FVal.encode .f32 rm s.fzo (FVal.add rm (FVal.decode .f32 (fl a)) (FVal.decode .f32 (fl b))))
  | 9 => out (fminmax false (fl a) (fl b))
  | _ => out (fminmax true (fl a) (fl b))

/-- R140, R141: the values of field a of some lanes combined in ascending order from the identity. -/
def combine (s : State) (x : LaneOp) (op : Nat) (ls : List Nat) : W32 :=
  ls.foldl (fun r j => s.crossOp op r (s.src x .a j)) (crossId op)

/-- R138: the lane that lane `i` reads, if it is in the tile. -/
def shflFrom (s : State) (x : LaneOp) (i : Nat) : Option Nat :=
  let w := s.me.tile
  let o := i % w
  let n := (s.src x .b i).toNat
  let t := match x.mb 0 2 with
    | 0 => some n
    | 1 => if n > o then none else some (o - n)
    | 2 => some (o + n)
    | _ => some (o ^^^ n)
  match t with
  | some t => if t < w then some (i - o + t) else none
  | none => none

end State

/-- R138 SHFL: an out-of-tile or dead source sets the lane's `sor` bit. -/
def execShfl (x : LaneOp) (s : State) : Out :=
  let dead (j : Nat) : Bool := s.me.dead.getLsbD j
  let bad := maskOf (fun i => s.cur.act.getLsbD i && (match s.shflFrom x i with | none => true | some j => dead j))
  .next ((s.setMe (fun b => { b with sor := b.sor ||| bad })).mapV x (fun t i =>
    match s.shflFrom x i with
    | none => t.src x .a i
    | some j => if dead j then 0 else t.src x .a j))

/-- R139 VOTE. -/
def execVote (x : LaneOp) (s : State) : Out :=
  let c (j : Nat) : Bool := s.src x .a j != 0
  .next (match x.mb 0 2 with
    | 0 => s.mapP x s.cur.act (fun s i => (s.tileLanes i).any c)
    | 1 => s.mapP x s.cur.act (fun s i => (s.tileLanes i).all c)
    | 2 => s.mapP x s.cur.act (fun s i => (s.tileLanes i).all (fun j => s.src x .a j == s.src x .a i))
    | _ => (s.ww (x.d.toNat - 324) ((maskOf (fun j => s.cur.act.getLsbD j && c j)).setWidth 64)).flow .go)

/-- R140 REDUX. -/
def execRedux (x : LaneOp) (s : State) : Out :=
  let w := s.me.tile
  let t := (s.src x .b 0).toNat % (32 / w)
  .next ((s.ww (x.d.toNat - 324) ((s.combine x (x.mb 0 4) ((lanesOf s.cur.act).filter (fun j => j / w = t))).setWidth 64)).flow .go)

/-- R141 SCAN. -/
def execScan (x : LaneOp) (s : State) : Out :=
  .next (s.mapV x (fun s i =>
    s.combine x (x.mb 0 4) ((s.tileLanes i).filter (fun j => if x.mb 4 1 = 1 then j < i else j ≤ i))))

/-- R142 MATCH. -/
def execMatch (x : LaneOp) (s : State) : Out :=
  .next (s.mapV x (fun s i => maskOf (fun j => (s.tileLanes i).contains j && s.src x .a j == s.src x .a i)))

/-- R135 LPART: acts whatever its active mask. -/
def execLpart (x : LaneOp) (s : State) : Out := .next ((s.setMe (fun b => { b with tile := 2 ^ x.mb 0 3 })).flow .go)

/-- R143 LELECT: predicated-off live lanes of the unit are cleared too. -/
def execLelect (x : LaneOp) (s : State) : Out :=
  let m := match s.me.unit s.cur.unit with | some u => s.me.live u.mask | none => 0
  .next (s.mapP x m (fun s i =>
    s.cur.act.getLsbD i && (if x.mb 0 1 = 1 then (s.tileLanes i)[0]? == some i else (lanesOf s.cur.act)[0]? == some i)))

/-- R144 LRAND: `ctr` advances at every execution. -/
def execLrand (x : LaneOp) (s : State) : Out :=
  .next ((s.mapV x (fun s i => mix s.me.seed (32 * s.me.ctr + BitVec.ofNat 64 i))).setMe (fun b => { b with ctr := b.ctr + 1 }))

end Sys2Proof.Machine
end

