-- ==== Sys2Proof/Machine/Bo.lean ====
section
/-! DEFINITION. Barrier objects (R184, R185): the object as data, its updates, those accepted and not yet performed. -/

namespace Sys2Proof.Machine

/-- R184: a barrier object: arrivals due, arrivals per phase, phase, bytes pending. -/
structure BoVal where
  pend : Nat := 0
  expect : Nat := 0
  phase : Bool := false
  bytes : Int := 0
  deriving DecidableEq, Repr

/-- The object in words 0 and 1. -/
def BoVal.ofWords (w0 w1 : W32) : BoVal :=
  { pend := w0.toNat % 2 ^ 16, expect := w0.toNat / 2 ^ 16 % 2 ^ 15, phase := w0.getLsbD 31, bytes := w1.toInt }

/-- Words 0 and 1 of the object. -/
def BoVal.word0 (o : BoVal) : Nat := o.pend + 2 ^ 16 * o.expect + (if o.phase then 2 ^ 31 else 0)
def BoVal.word1 (o : BoVal) : W32 := BitVec.ofInt 32 o.bytes

/-- R184: the flip rule. -/
def BoVal.flip (o : BoVal) : BoVal :=
  if o.pend = 0 ∧ o.bytes = 0 then { o with phase := !o.phase, pend := o.expect } else o

/-- R185: an accepted update applied to the object it finds: it never traps. -/
def BoOp.apply (op : BoOp) (o : BoVal) : BoVal :=
  match op with
  | .init x => { pend := x, expect := x, phase := false, bytes := 0 }
  | .arrive => { o with pend := o.pend - 1 }.flip
  | .expect y => { o with bytes := (BitVec.ofInt 32 (o.bytes + y)).toInt }.flip
  | .deliver n => { o with bytes := (BitVec.ofInt 32 (o.bytes - n)).toInt }.flip

namespace State

/-- The object at a scratch offset of a block, as it stands. -/
def boAt (s : State) (b off : Nat) : BoVal :=
  let m := (s.block b).scratch
  BoVal.ofWords (BitVec.ofNat 32 (m.num off 4)) (BitVec.ofNat 32 (m.num (off + 4) 4))

/-- R185: the object after every update of it that the core has accepted. -/
def boAccepted (s : State) (b off : Nat) : BoVal :=
  ((s.core (s.coreOf b)).boPend.filter (fun u => u.blk = b && u.off = off)).foldl (fun o u => u.op.apply o) (s.boAt b off)

/-- R161: would a read of the object meet poison, after the accepted updates. -/
def boPoisoned (s : State) (b off : Nat) : Bool :=
  s.poisonedAt { sp := .scratch b, addr := off } 16 && !((s.core (s.coreOf b)).boPend.any (fun u => u.blk = b && u.off = off && (match u.op with | .init _ => true | _ => false)))

/-- R185: accepts an update. -/
def acceptBo (u : BoUpd) (s : State) : State := s.setCore (s.coreOf u.blk) (fun k => { k with boPend := k.boPend ++ [u] })

/-- R185: performs one accepted update: BOINIT writes all four words, another update words 0 and 1 of an object that holds
no poison. Word 2 is undefined: BOINIT gives it a free value, and another update leaves it as it stands (log entry 1, DESIGN CHOICE). -/
def applyBo (u : BoUpd) (s : State) : State :=
  let l : Loc := { sp := .scratch u.blk, addr := u.off }
  let o := u.op.apply (s.boAt u.blk u.off)
  let s := if o.phase = (s.boAt u.blk u.off).phase then s else s.tapBeam u.blk u.beam 0x15 (BitVec.ofNat 32 u.off) 0 0 0
  match u.op with
  | .init _ =>
    let f := s.takeFree
    f.2.poke l (toBytes 4 o.word0 ++ toBytes 4 o.word1.toNat ++ toBytes 4 (Config.boWord2 f.1).toNat ++ toBytes 4 0)
  | _ => if s.poisonedAt l 16 then s else s.poke l (toBytes 4 o.word0 ++ toBytes 4 o.word1.toNat)

/-- R185: performs the oldest accepted update of a core. -/
def performBo (c : Nat) (s : State) : State :=
  match (s.core c).boPend with
  | [] => s
  | u :: r => (s.setCore c (fun k => { k with boPend := r })).applyBo u

/-- Performs every accepted update of a core, in order. -/
def performAllBo (c : Nat) (s : State) : State :=
  ((s.core c).boPend.foldl (fun s u => s.applyBo u) s).setCore c (fun k => { k with boPend := [] })

/-- R84: before a beam's next access, its accepted updates are performed (and those accepted before them) (log entry 33, DEDUCED). -/
def drainBo (b j : Nat) (s : State) : State :=
  let c := s.coreOf b
  if (s.core c).boPend.any (fun u => u.blk = b && u.beam = j) then s.performAllBo c else s

/-- R185: the scratch offset that an object address names, or the MEM cause; `kind` as R185 gives it. -/
def boCheck (s : State) (kind : Nat) (a : W64) : Except Cause Nat :=
  let b := s.cur.blk
  if !s.ownScratch b a || (formFault a).isSome then .error (memCause 1 0 kind true 1 a)
  else if a.toNat % 16 ≠ 0 then .error (memCause 3 0 kind true 1 a)
  else
    match s.boundsFault b a 16 with
    | some c => .error (memCause c 0 kind true 1 a)
    | none => .ok (scratchOff a)

/-- R218: the detail of SYNC.BO_RANGE (8) and SYNC.BO_OVERARRIVE (9). -/
def boCause (code : Nat) (o : BoVal) (a : W64) : Cause := { grp := 5, code := code, d0 := o.pend, d1 := o.word1, d2 := a.setWidth 32 }

/-- A barrier-object instruction: its checks, then `k` with the object's offset, behind the stream's earlier stores to the object (R84). `reads` ones consume poison (R161). -/
def withBo (kind : Nat) (reads : Bool) (a : W64) (k : Nat → State → State) (s : State) : State :=
  match s.boCheck kind a with
  | .error c => s.trapMe c
  | .ok off =>
    if reads && (s.performAt s.cur.blk s.cur.beam none { sp := .scratch s.cur.blk, addr := off } 16).boPoisoned s.cur.blk off then
      (s.postConsumed s.cur.blk s.cur.beam 1 a.toNat 1 none).killBeam s.cur.blk s.cur.beam
    else k off (s.performAt s.cur.blk s.cur.beam none { sp := .scratch s.cur.blk, addr := off } 16)

end State
end Sys2Proof.Machine
end

