-- ==== Sys2Proof/Machine/Frag.lean ====
section
/-! DEFINITION. The fragment stack in private memory (R131, R132), joins (R130), the end of units and regions (R82). -/

namespace Sys2Proof.Machine

/-- R218: the unit part of a SYNC detail: [18:17] kind, [31:24] fragment record. -/
def unitDetail (u : Nat) : Nat := (if u = 0 then 0 else if u = 1 then 2 else 4) + (if u < 2 then 0 else 256 * (u - 2))

/-- What a store of the core into private memory comes to: done; a MEM trap; a page fault; no room in the store gate (R239); or a wait, for
an answer or (not `sent`) for space in the dirty log. -/
inductive CorePut where
  | ok (s : State)
  | trap (code : Nat)
  | fault (page mapping : Nat) (gpa : Option Nat)
  | full
  | wait (sent : Bool) (s : State)

/-- R124: dead lanes leave every unit, and a unit with no lane left ends. -/
def dropLanes (m : W32) (x : Beam) : Beam :=
  let f (y : LUnit) : Option LUnit := if y.mask &&& ~~~m = 0 then none else some { y with mask := y.mask &&& ~~~m }
  { x with lit := x.lit.bind f, shade := x.shade.bind f, frags := x.frags.filterMap (fun e => (f e.2).map (fun y => (e.1, y))) }

/-- R131: the 16 bytes of a record. -/
def recordBytes (y : LUnit) : List Byte := toBytes 4 y.pc.toNat ++ toBytes 4 y.mask.toNat ++ toBytes 2 y.token.toNat ++ toBytes 6 1

namespace State

/-- R131: the virtual address of record `r` of beam `j`. -/
def recordVa (s : State) (b j r : Nat) : Nat :=
  let k := s.block b
  (k.prbase.toNat + 32 * k.beams.length * k.prsize + 1024 * j + 16 * r) % 2 ^ 64

/-- What a remote store of the core comes to. -/
def coreAnswer (who : ReqWho) (w : Nat × Nat × Nat) (r : Rem) (s : State) : CorePut :=
  match r with
  | .wait t => .wait true t
  | .err _ => .trap 8
  | .ok _ _ => .ok ((s.forget who).unpark w)

/-- A store that the core makes for a beam at a virtual address (R131, R132), by writer `w` (R274). In a mirrored block it is a store into
private memory like any other, and is gated (R239); no signature takes it in (log entry 74, DESIGN CHOICE). -/
def corePut (b : Nat) (who : ReqWho) (w : Nat × Nat × Nat) (va : Nat) (bs : List Byte) (s : State) : CorePut :=
  match s.asked who 2 va bs.length with
  | some (_, r) => s.coreAnswer who w r
  | none =>
  match s.taskView (s.block b).task va (s.xlat (s.ctxOf b) (s.tenantOf b) va true) with
  | .trap c => .trap c
  | .fault page mp gpa => .fault page mp gpa
  | .ok l page =>
    if s.gated b l then (match s.gateBytes b l page 0 bs with | some t => .ok t | none => .full)
    else if s.dirtyFull page (some w) then .wait false (s.parkFull page (some w))
    else
      match l.sp with
      | .remote node => s.coreAnswer who w (s.remoteStore who 2 0 node l.addr bs.length bs page 0 (s.cidOf (s.ctxOf b)) none va)
      | _ => .ok ((s.store b 0 l page bs).unpark w)

/-- R274: the core, as it clears a record, as a tenant's `parked` list names it. -/
def clearWriter (b j r : Nat) : Nat × Nat × Nat := (2 ^ 32 + 3, 32 * b + j, r)

/-- R132: the records that detachments are writing. -/
def Beam.pinned (x : Beam) : List Nat := x.unitIds.filterMap (fun u => (x.unit u).bind (fun y => y.held.bind (·.record)))

/-- R131: the lowest-numbered record that is free; one whose clear is held is taken last. -/
def freeRecord (x : Beam) : Option Nat :=
  let free (r : Nat) : Bool := (x.frags.find r).isNone && !(Beam.pinned x).contains r
  ((List.range 64).find? (fun r => free r && !x.clears.contains r)).orElse (fun _ => (List.range 64).find? free)

/-- The fault record of a lane access (R159), or the exit of a stage-2 miss (R269), with the walk's tap (log entry 52, DEDUCED). -/
def laneFaultPost (b j addr mapping : Nat) (gpa : Option Nat) (s : State) : State :=
  let s := s.tapFault b j addr
  match gpa with
  | some g => s.postStage2 b g
  | none => s.postFault b j 0 addr mapping

/-- R132: a record's clear: held on a page fault (one fault record), or while it waits for space, and dropped where no mapping covers it. -/
def clearRecord (b j r : Nat) (s : State) : State :=
  let va := s.recordVa b j r + 10
  let hold (t : State) : State := t.setBeam b j (fun x => if x.clears.contains r then x else { x with clears := x.clears ++ [r] })
  match s.corePut b (.lane b j 1000 r) (clearWriter b j r) va (toBytes 1 0) with
  | .ok t => t.setBeam b j (fun x => { x with clears := x.clears.filter (· != r) })
  | .trap _ => s.setBeam b j (fun x => { x with clears := x.clears.filter (· != r) })
  | .full => hold s
  | .wait _ t => hold t
  | .fault _ mp gpa =>
    if (s.beamAt b j).clears.contains r then s
    else (s.setBeam b j (fun x => { x with clears := x.clears ++ [r] })).laneFaultPost b j va mp gpa

/-- R132: the record that the word being issued has begun to write. -/
def pinnedRec (s : State) : Option Nat := (s.me.unit s.cur.unit).bind (fun y => y.held.bind (·.record))

/-- R128, R132: detaches a fragment: its record is written, then it is queued to the scheduler. On a page fault, and while it waits, the
word has no effect, and keeps the record it has begun to write. A record that lies in no writable mapping traps with the lanes that
detach (log entry 26, DESIGN CHOICE). -/
def detach (y : LUnit) (k : State → State) (s : State) : State :=
  let b := s.cur.blk
  let j := s.cur.beam
  match s.pinnedRec.orElse (fun _ => freeRecord s.me) with
  | none => s.trapLane { grp := 5, code := 3, d0 := unitDetail s.cur.unit, d1 := y.mask }
  | some r =>
    let va := s.recordVa b j r
    let pages := match s.me.unit s.cur.unit with | some z => (match z.held with | some h => h.pages | none => []) | none => []
    let hold (h : Held) (t : State) : State :=
      (t.setMe (fun x => match x.unit s.cur.unit with
        | some z => x.setUnit s.cur.unit (some { z with held := some { h with unfinished := s.cur.act, sending := true } })
        | none => x)).flow .stay
    match s.corePut b (.lane b j s.cur.unit 32) s.laneWriter va (recordBytes y) with
    | .ok t =>
      k ((t.setMe (fun x => { x with frags := x.frags.put r { y with queued := true, held := none, join := false }, clears := x.clears.filter (· != r) })).tapLanes b j 0x0D y)
    | .trap c => s.trapLane (memCause c ((lanesOf y.mask)[0]?.getD 0) 1 false y.mask (BitVec.ofNat 64 va))
    | .full => s.trapLane gateCause
    | .wait sent t => hold { pages := pages, ready := true, flying := sent, record := if sent then some r else none } t
    | .fault page mp gpa =>
      if pages.contains page then hold { pages := pages, ready := false } s
      else (hold { pages := pages ++ [page], ready := false } s).laneFaultPost b j va mp gpa

/-- R130: the token and the returned token of the LJOIN at a word of a block's code. -/
def joinAt (s : State) (b : Nat) (pc : W64) : Option (BitVec 12 × BitVec 12) :=
  match (s.codeOf b).lcode[pc.toNat]? with
  | some w =>
    match decodeLane w.toNat with
    | .ok { body := .one (.ljoin x), .. } => some ((x.imm >>> 20).setWidth 12, x.imm.setWidth 12)
    | _ => none
  | none => none

/-- R130: the units that carry a token. -/
def carriers (x : Beam) (tok : BitVec 12) : List (Nat × LUnit) :=
  (x.unitIds.filterMap (fun u => (x.unit u).map (fun y => (u, y)))).filter (fun e => e.2.token = tok)

/-- R130: is the join for a token complete: every carrier waits, and no unit holds a greater token. -/
def joinReady (x : Beam) (tok : BitVec 12) : Bool :=
  let cs := carriers x tok
  !cs.isEmpty && cs.all (fun e => e.2.join) && x.unitIds.all (fun u => match x.unit u with | some y => y.token ≤ tok | none => true)

/-- R130: merges the carriers of a token: into the lit slot, else the shade slot, else the lowest fragment record, which
is the order of the unit numbers. -/
def mergeJoin (tok rtok : BitVec 12) (pc : W64) (x : Beam) : Beam :=
  let cs := carriers x tok
  match cs with
  | [] => x
  | (u, _) :: _ =>
    let m := cs.foldl (fun m e => m ||| e.2.mask) (0 : W32)
    (cs.foldl (fun x e => x.setUnit e.1 none) x).setUnit u (some { pc := pc + 1, mask := m, token := rtok })

/-- R130: the join at which unit `u` of a beam waits, if it is complete: merged, or the mismatch that `u` raises. -/
def tryJoin (b j u : Nat) (s : State) : Except Cause State :=
  let x := s.beamAt b j
  match x.unit u with
  | none => .ok s
  | some y =>
    match s.joinAt b y.pc with
    | none => .ok s
    | some (tok, rtok) =>
      if y.join && y.token = tok && joinReady x tok then
        match (carriers x tok).find? (fun e => e.2.pc != y.pc) with
        | some (_, z) => .error { grp := 5, code := 4, d0 := tok.toNat, d1 := y.pc.setWidth 32, d2 := z.pc.setWidth 32 }
        | none => .ok ((s.setBeam b j (mergeJoin tok rtok y.pc)).tapLanes b j 0x0E y)
      else .ok s

/-- R130: the joins that a unit's end or new token has completed, in one pass over the units. A mismatch stands until the block may
trap (`settle`). -/
def joinPass (b j : Nat) (s : State) : State :=
  (s.beamAt b j).unitIds.foldl (fun s u => match s.tryJoin b j u with | .ok t => t | .error _ => s) s
/-- R130: passes until none completes a join: a merged unit's new token may complete another. Each merge but the last leaves one unit
less that waits. -/
def joinPasses (b j : Nat) : Nat → State → State
  | 0, s => s
  | n + 1, s =>
    let t := s.joinPass b j
    let waiting (s : State) : Nat := (s.beamAt b j).unitIds.countP (fun u => (((s.beamAt b j).unit u).map (·.join)).getD false)
    if waiting t < waiting s then joinPasses b j n t else t
def settleJoins (b j : Nat) (s : State) : State := s.joinPasses b j (s.beamAt b j).unitIds.length

/-- R82: a region ends when no unit holds lanes. -/
def endRegion (b j : Nat) (s : State) : State :=
  let x := s.beamAt b j
  if x.running && x.unitIds.isEmpty then
    s.setBeam b j (fun x => { x with regions := x.regions.drop 1, running := false })
  else s

/-- R131: the records of the fragments that have gone since `was` are cleared. -/
def clearGone (b j : Nat) (was : List Nat) (s : State) : State :=
  (was.filter (fun r => ((s.beamAt b j).frags.find r).isNone)).foldl (fun s r => s.clearRecord b j r) s

/-- R82, R130, R131: what the end of units brings about: joins, freed records, the end of the region. -/
def unitsChanged (b j : Nat) (was : List Nat) (s : State) : State :=
  ((s.settleJoins b j).clearGone b j was).endRegion b j

end State
end Sys2Proof.Machine
end

