-- ==== Sys2Proof/Machine/Issue.lean ====
section
/-! DEFINITION. Issue: which stream may issue, fetching and decoding its next word with every check that comes before the
word's effect (R53, R88, R97, R126), and what a word's end does to its unit; and the deadlocks (R85, R179). -/

namespace Sys2Proof.Machine

/-- R53, R218: the cause of a decode trap. -/
def decCause (e : DecErr) : Cause := { grp := 3, code := e.code, d0 := e.slot + 4 * e.field, d1 := BitVec.ofNat 32 e.value }

/-- A lane word ready to run: its slots in the order they run (slot, entries popped by field, operation). -/
structure Plan where
  s : State
  ops : List (Nat × Tab W64 × Instr)

/-- What fetching gives: an instruction to run in a prepared state, or a step that is over. -/
inductive Fetched (α : Type) where
  | run (x : α)
  | ended (s : State)

/-- R90, R363: whether an access waits for every earlier region (`w`: a SYSW). -/
def SysReg.interlocked (w : Bool) : SysReg → Bool
  | .seed => w
  | .ctr | .dead | .sor | .retired | .litpc | .litst | .shadepc | .shadest | .fragn => true
  | _ => false

namespace State

/-- R238: a mirrored block issues only while its partner is resident too. -/
def partnerThere (s : State) (b : Nat) : Bool :=
  match (s.block b).mirror with
  | none => true
  | some m => match s.blocks.find m.partner with | some k => k.resident || k.ended | none => true

/-- Waits that an event ends, at which the scalar instruction does not issue again. -/
def eventPark : SPark → Bool
  | .bar _ | .claim _ _ | .bowait _ _ | .waitw _ _ _ _ | .yield | .fault _ false => true
  | _ => false

/-- R355: does the scalar stream of a beam wait for the answer to an access that it has issued. -/
def waitsAnswer (x : Beam) : Bool := match x.spark with | .remote _ => true | _ => false

/-- R150, R215: does a lane unit of a beam hold a word of which accesses are in flight. -/
def unitFlying (x : Beam) (u : Nat) : Bool := match x.unit u with | some y => (y.held.map (·.flying)).getD false | none => false

/-- R262: a merge that a TJOIN of a block has begun: it runs to its end although the block halts. -/
def merging (s : State) (b : Nat) : Bool :=
  s.fab.reqs.any (fun e => match e.2.who with
    | .merge k => (s.task k).parent = (s.block b).task && (s.block b).beams.any (fun x => x.2.spark == .join)
    | _ => false)

/-- R215, R226: may a scalar access that awaits its answer still end in the stop of a block. -/
def answersEnd (h : Option Halt) : Bool := match h with | some h => h.stage != .ending && h.stage != .debug | none => true

/-- R215 step 4: every access that the block issued is performed: answered, with its word done, every late store and every accepted update
of a barrier object made, every detachment complete (R132) and every merge (R262). -/
def accessesDone (s : State) (b : Nat) : Bool :=
  !((s.core (s.coreOf b)).boPend.any (fun u => u.blk = b)) && !s.merging b
    && (s.block b).beams.all (fun e => e.2.late.isEmpty && (e.2.exited || (!(waitsAnswer e.2 && answersEnd (s.block b).halt) && e.2.unitIds.all (fun u => !unitFlying e.2 u))))
    && s.fab.reqs.all (fun e => match e.2.who with
      | .scalar x _ | .watch x _ | .lane x _ _ _ => x != b || e.2.answer.isSome
      | _ => true)

/-- R215, R217, R226: may the scalar stream of a beam issue, or go on with an access whose answer it awaits. -/
def mayScalar (s : State) (b j : Nat) : Bool :=
  s.onCore b && s.partnerThere b && !(s.beamAt b j).exited && !eventPark (s.beamAt b j).spark &&
  match (s.block b).halt with
  | none => true
  | some h =>
    match h.stage with
    | .signalled => waitsAnswer (s.beamAt b j) || (((s.beamAt b j).skid.toNat / 16 % 16 < 8 || ((s.beamAt b j).spark == .join && s.merging b)) && !(h.beam = j && h.unit.isNone && h.cause.isSome) && !(s.beamAt b j).inHandler)
    | .handler => h.beam = j && (s.beamAt b j).inHandler && (!h.quiet || 0 < h.left || waitsAnswer (s.beamAt b j))
    | _ => false

/-- R159, R215: may a lane unit of a beam issue, or go on with its word's accesses: while a word holds the whole lane stream, only its own
unit. -/
def mayLane (s : State) (b j u : Nat) : Bool :=
  let x := s.beamAt b j
  s.onCore b && s.partnerThere b && !x.exited &&
  (match x.unit u with | some y => !y.join && y.mwait.isNone && !y.queued && (match y.held with | some h => h.ready | none => true) | none => false) &&
  (x.unitIds.all (fun v => v = u || !(match x.unit v with | some y => (y.held.map (·.stream)).getD false | none => false))) &&
  match (s.block b).halt with
  | none => true
  | some h =>
    match h.stage with
    | .signalled => (x.skid.toNat % 16 < 8 || unitFlying x u) && !(h.beam = j && h.unit = some u) && !x.inHandler
    | _ => false

/-- R84, R185: barrier-object updates may stay accepted and not performed only while the beam issues more of them. -/
def isBoUpdate : Instr → Bool
  | .boinit _ _ _ | .boarrive _ | .boexpect _ _ _ => true
  | _ => false

/-- R83 edge 4: the scalar instructions that wait for the regions before them. -/
def waitsRegions (x : Beam) : Instr → Bool
  | .lwait | .sgetw .. | .texit | .rgive .. | .rclaim .. | .bar .. | .tenq .. | .tfork .. | .tjoin .. | .trigger | .seal .. | .mcommit => true
  | .sysr _ r => SysReg.interlocked false r
  | .sysw r _ => SysReg.interlocked true r
  | .tyield => x.preq.getLsbD 0
  | _ => false

/-- R26, R29: does an access with this order, or a fence of this kind, release at a scope beyond the agent. -/
def releases (o : Ord) (sc : Scope) : Bool := (o == .rel || o == .ar || o == .sc) && sc != .lane
/-- R148: the same of a lane word's annotation. -/
def annotReleases (x : LaneOp) : Bool :=
  match Ord.ofCode (x.c.toNat / 8 % 8), Scope.ofCode (x.c.toNat % 8) with
  | some o, some sc => x.c != 0 && releases o sc
  | _, _ => false

/-- R26, R28, R84, R183, R213: the words before which the earlier stores of their stream are performed: releases, fences, and what hands
work to another agent (log entry 20, DESIGN CHOICE). -/
def ordersLate : Instr → Bool
  | .samo _ _ _ _ _ o sc | .samoLoad _ _ _ o sc | .samoStore _ _ _ o sc | .scas _ _ _ _ o sc => releases o sc
  | .sfence k sc => k != .acq && sc != .lane
  | .boinit .. | .boarrive .. | .boexpect .. | .bar .. | .mcommit | .tenq .. | .tfork .. | .tjoin .. | .trigger | .seal .. | .eret => true
  | .fence x => x.mb 0 2 != 0 && x.mb 2 3 != 0
  | .ld x | .atom x | .acas x => annotReleases x
  | .st x => x.long && annotReleases x
  | i => match i.laneSpec with | some sp => sp.cls == .engine || sp.cls == .matrix | none => false

/-- R83, R84: what a word of the scalar stream (`lanes` false) or of the lane stream does to the beam's late stores before it issues. -/
def orderLate (lanes : Bool) (b j : Nat) (i : Instr) (s : State) : State :=
  let x := s.beamAt b j
  let s := if !lanes && waitsRegions x i && x.regionsDone then s.shareLate b j true else s
  let s := match i with
    | .lrun .. => if x.regions.length < 4 then s.shareLate b j false else s
    | _ => s
  if ordersLate i then s.performOwn b j lanes else s

/-- Fetches and decodes the next scalar word of a beam (R81, R88, R44). A stream that runs past its section names field 7 (log entry
19, DESIGN CHOICE). -/
def fetchScalar (b j : Nat) (s : State) : Fetched (Instr × State) :=
  let s := { s with cur := { blk := b, beam := j, fmode := (s.beamAt b j).fmode } }
  match (s.codeOf b).scode[s.me.spc.toNat]? with
  | none => .ended (s.trapMe (targetCause 3 7 s.me.spc))
  | some w =>
    match decodeScalar w.toNat with
    | .error e => .ended (s.trapMe (decCause e))
    | .ok i =>
      let s := s.orderLate false b j i
      .run (i, if isBoUpdate i then s else s.drainBo b j)

/-- R215: a word that issued after the halt was signalled counts as a skid word: 1 lane, 16 scalar (log entry 25, DESIGN
CHOICE). So does an instruction of a handler that a SHUTTER stops, whose `skid` stays that of its own halt (R216, R222). -/
def countSkid (b j k : Nat) (was : Bool) (s : State) : State :=
  if was then s.setBeam b j (fun x => { x with skid := x.skid + BitVec.ofNat 64 k })
  else match (s.block b).halt with
    | some h => if h.quiet && h.stage = .handler then s.setBlock b (fun k => { k with halt := some { h with left := h.left - 1 } }) else s
    | none => s

/-- Is the block's halt signalled and not complete. -/
def signalled (s : State) (b : Nat) : Bool := match (s.block b).halt with | some h => h.stage = .signalled | none => false

/-- R324, R240: the features and fences masked for a block; the answer is op10. -/
def laneMasked (s : State) (b : Nat) (i : Instr) : Bool :=
  let f := (s.tenant (s.tenantOf b)).fmask
  match i with
  | .lmark _ => f.getLsbD 3
  | .mfuse _ => f.getLsbD 2
  | .fence x => (s.block b).mirror.isSome && x.mb 0 2 != 0 && 3 ≤ x.mb 2 3
  | _ => false

/-- R181: may a beam of this role issue the operation. -/
def roleAllows (role : Nat) (i : Instr) : Bool :=
  match i.laneSpec with
  | some sp => if sp.cls == .engine then role = 1 else if sp.cls == .matrix then role = 2 else true
  | none => true

/-- The first slot of a word that fails a check, with its slot number. -/
def firstBad (body : LaneBody) (bad : Instr → Bool) : Option (Nat × Instr) :=
  match body with
  | .one i => if bad i then some (0, i) else none
  | .two i j => if bad i then some (1, i) else if bad j then some (2, j) else none

/-- op10 of a lane operation. -/
def opOf (i : Instr) : Nat := match i.laneSpec with | some sp => sp.code | none => 0

/-- R53: the decode trap of a lane word, if any. -/
def laneErr (s : State) (w : Nat) : Except Cause LaneWord :=
  match decodeLane w with
  | .error e => .error (decCause e)
  | .ok lw =>
    match firstBad lw.body (s.laneMasked s.cur.blk) with
    | some (k, i) => .error (illegal 2 k 0 (opOf i))
    | none =>
      match firstBad lw.body (fun i => !roleAllows s.me.role i) with
      | some (k, i) => .error (illegal 3 k 0 (opOf i))
      | none =>
        match lw.operandErr s.me.regCount with
        | some e => .error (decCause e)
        | none =>
          match lw.pairErr with
          | some e => .error (decCause e)
          | none => .ok lw

/-- The operations of a word with their slots. -/
def slotsOf (body : LaneBody) : List (Nat × Instr) :=
  match body with
  | .one i => [(0, i)]
  | .two i j => [(1, i), (2, j)]

/-- R54: a control operation of a paired word runs after its partner. -/
def isControl (i : Instr) : Bool := match i.laneSpec with | some sp => sp.cls == .ctl | none => false
def inOrder (ops : List (Nat × Tab W64 × Instr)) : List (Nat × Tab W64 × Instr) :=
  match ops with
  | [(k, p, i), y] => if isControl i then [y, (k, p, i)] else [(k, p, i), y]
  | l => l

/-- R37: hands out queue entries to the slots' fields, in order. -/
def handOut : List (Nat × Instr) → List W64 → List (Nat × Tab W64 × Instr)
  | [], _ => []
  | (k, i) :: r, q =>
    let fs := uqFields i
    (k, (fs.zip q).foldl (fun t e => Tab.put t e.1 e.2) [], i) :: handOut r (q.drop fs.length)

/-- R153: a prefetch raises only decode traps: its lanes that fail a later check drop, and in a beam that is not converged it
names no entry. In a converged one that names an entry the queue does not hold, it waits for it (R37; log entry 60, DESIGN CHOICE). -/
def isPref : Instr → Bool
  | .pref _ => true
  | _ => false

/-- R12, R240: an atomic or an annotated store of a mirrored block of which one lane goes outside the own scratch is masked. It is so before the
word waits or is checked further, once the fields of its address are known: queue entries that are there, and registers within the allotment
(log entry 29, DEDUCED). -/
def accessMasked (s : State) (k : Nat) (q : Tab W64) (i : Instr) : Option Cause :=
  let s := s.setCur (fun c => { c with uq := q })
  let lanes := lanesOf s.cur.act
  let masked (x : LaneOp) (off : Option Field) : Option Cause :=
    let parts := Field.a.num :: (off.map Field.num).toList
    let known := (uqFields i).all (fun f => !parts.contains f || (s.me.converged && (q.find f).isSome))
      && lanes.all (fun l => (indirectFields s i l).all (fun e => !parts.contains e.1 || e.2 < s.me.regCount))
    if known && lanes.any (fun l => !s.ownScratch s.cur.blk (s.laneAddr x .a off l)) then some (illegal 2 k 0 (opOf i)) else none
  if s.myBlock.mirror.isNone then none
  else
    match i with
    | .atom x | .acas x => masked x none
    | .st x => if x.long && x.c != 0 then masked x (some .b) else none
    | _ => none

/-- Fetches, decodes and checks the next word of a lane unit, and pops the uniform queue. A held word goes on for its unfinished lanes, but
one that has had no effect issues as at first (R132, R158). A word that names `uq` beside an LPART
in a diverged beam reports the entry (R126; log entry 60, DESIGN CHOICE). A unit that runs past the last word of `.lcode` traps ILLEGAL.TARGET with
slot 0 and field 7 (log entry 19, DESIGN CHOICE). -/
def fetchLane (b j u : Nat) (s : State) : Fetched Plan :=
  match (s.beamAt b j).unit u with
  | none => .ended s
  | some y =>
    let fm := match (s.beamAt b j).regions with | r :: _ => r.fmode | [] => (s.beamAt b j).fmode
    let s := { s with cur := { blk := b, beam := j, unit := u, slot := 0, fmode := fm } }
    match (s.codeOf b).lcode[y.pc.toNat]? with
    | none => .ended (s.trapLane (targetCause 0 7 y.pc))
    | some w =>
      match s.laneErr w.toNat with
      | .error c => .ended (s.trapLane c)
      | .ok lw =>
        let s := (slotsOf lw.body).foldl (fun s e => s.orderLate true b j e.2) s
        match y.held.filter (fun h => !h.sending) with
        | some h =>
          let s := s.setCur (fun c => { c with act := h.unfinished &&& y.mask &&& ~~~s.me.dead })
          .run { s := s, ops := ((slotsOf lw.body).filter (fun e => match lw.body with | .one _ => true | .two _ _ => !inIntFp e.2)).map (fun e => (e.1, h.popped, e.2)) }
        | none =>
          let p := s.rp lw.pred.toNat
          let act := s.me.live (y.mask &&& (if lw.neg then ~~~p else p))
          let slots := slotsOf lw.body
          let ops := handOut slots s.me.uq
          let s := s.setCur (fun c => { c with act := act })
          match (ops.findSome? (fun e => s.accessMasked e.1 e.2.1 e.2.2)).orElse (fun _ =>
              (ops.filter (fun e => !isPref e.2.2)).findSome? (fun e => boundsCause (s.setCur (fun c => { c with uq := e.2.1 })) e.2.2)) with
          | some c => .ended (s.trapLane c)
          | none =>
            let need := (slots.map (fun e => if isPref e.2 && !s.me.converged then 0 else (uqFields e.2).length)).sum
            let lpart := slots.any (fun e => match e.2 with | .lpart _ => true | _ => false)
            if (need > 0 || lpart) && !s.me.converged then
              .ended (s.trapLane { grp := 5, code := 2, d0 := (if need > 0 then 0 else 1) + unitDetail u })
            else if s.me.uq.length < need then .ended (s.setMe (fun x => { x with uqneed := need }))
            else
              .run { s := s.setMe (fun x => { x with uq := x.uq.drop need, uqneed := 0 }), ops := inOrder ops }

/-- How two flows of one word combine. -/
def joinFlow (a b : Flow) : Flow :=
  match a, b with
  | .trapped c, _ => .trapped c
  | _, .trapped c => .trapped c
  | .stay, _ => .stay
  | _, .stay => .stay
  | .jumped, _ => .jumped
  | _, x => x

/-- A unit that waits with something kept: a held word or an MWAIT. A word that waits for room has not issued (R194). -/
def parkedUnit (x : Beam) (u : Nat) : Bool := match x.unit u with | some y => y.held.isSome || y.mwait.isSome | none => false

/-- R171: the slot that issues next where both are ready: the lit slot after a split, then the other in turn. -/
def served (b j u : Nat) (pre t : State) : State :=
  if u ≤ 1 then t.setBeam b j (fun x => { x with due := if (pre.beamAt b j).shade.isNone && x.shade.isSome then 0 else 1 - u }) else t

/-- R132, R158: a word that waits with no effect leaves the beam's registers and queue as they were. -/
def undoWord (pre x : Beam) : Beam := { x with uq := pre.uq, uqneed := pre.uqneed, v := pre.v, p := pre.p, ix := pre.ix, w := pre.w }

/-- The unit's held word, if any. -/
def heldOf (x : Beam) (u : Nat) : Option Held := (x.unit u).bind (·.held)
/-- Changes what unit `u` holds. -/
def setHeld (u : Nat) (h : Option Held) (x : Beam) : Beam := match x.unit u with | some y => x.setUnit u (some { y with held := h }) | none => x

/-- R211, R229: the first use of an accumulator area that nobody owns comes before every other check of its matrix word, and stands though the
word traps. -/
def keepOwner (b : Nat) (t s : State) : State :=
  let c := s.coreOf b
  if (s.core c).accown.isNone && (t.core c).accown.isSome then s.setCore c (fun k => { k with accown := (t.core c).accown, acc := [], accPoison := [], acclive := [] })
  else s

/-- R158, R159: a trap undoes the word. One that waited with no effect is as if it had not issued; one of which lanes have completed keeps
that, and its requests that were refused are sent again. It waits for no log (R274). -/
def undone (b j u : Nat) (pre t : State) : State :=
  let s := keepOwner b t (State.unpark (b, j, u + 1) { pre with cur := t.cur, free := t.free })
  match heldOf (pre.beamAt b j) u with
  | some h =>
    if h.sending then (s.forgetLane b j u).setBeam b j (setHeld u none)
    else (s.forgetErr b j u).setBeam b j (setHeld u (some { h with flying := false }))
  | none => s

/-- The end of a lane word that ran in `t`, issued in `pre`: a trap undoes it; else the PC moves by the flow. -/
def finishLane (b j u : Nat) (pre t : State) : State :=
  let was := pre.signalled b && (heldOf (pre.beamAt b j) u).isNone
  match t.cur.flow with
  | .trapped c => (undone b j u pre t).takeTrap b j c (some u)
  | .stay =>
    if parkedUnit (t.beamAt b j) u then
      let t := if ((heldOf (t.beamAt b j) u).map (·.sending)).getD false then t.setBeam b j (undoWord (pre.beamAt b j)) else t
      t.countSkid b j 1 was
    else
      let pre := pre.performSome b j (fun e => !(t.beamAt b j).late.contains e)
      { pre with cur := t.cur, fab := t.fab, cores := t.cores }
  | .jumped => served b j u pre (((t.unitsChanged b j (pre.beamAt b j).frags.keys).countSkid b j 1 was) |>.forgetLane b j u)
  | .go =>
    let t := t.setBeam b j (fun x => match x.unit u with | some y => x.setUnit u (some { y with pc := y.pc + 1, join := false, held := none }) | none => x)
    served b j u pre (((t.unitsChanged b j (pre.beamAt b j).frags.keys).countSkid b j 1 was) |>.forgetLane b j u)

/-- R37, R93: a lane word waits for entries that the queue does not hold. -/
def uqWaits (x : Beam) : Bool := x.uq.length < x.uqneed

/-- R85: a beam whose two streams wait for each other, or whose UPUSH no lane word can serve. -/
def uqDeadlock (x : Beam) : Bool :=
  !x.exited && ((uqWaits x && (x.spark == .region || (x.spark == .lrun && 4 ≤ x.regions.length)))
    || (x.spark == .upush && x.regions.isEmpty && x.uq.length ≥ 16))

/-- R179: every live beam parked past its region wait in RCLAIM or BAR, no claim fits, no barrier is complete. -/
def blockDeadlock (k : Block) : Bool :=
  let live := k.beams.filter (fun e => !e.2.exited)
  !live.isEmpty
  && live.all (fun e => match e.2.spark with | .claim _ _ => true | .bar _ => true | _ => false)
  && live.all (fun e => match e.2.spark with | .claim _ n => n > k.reserve | _ => true)
  && (List.range 17).all (fun n => live.any (fun e => e.2.spark != .bar n))

/-- The bitmap of the live beams that satisfy `p`. -/
def beamMask (k : Block) (p : Beam → Bool) : W32 := maskOf (fun j => match k.beams.find j with | some x => !x.exited && p x | none => false)

/-- The n of a parked RCLAIM, or the number of a barrier. -/
def parkNumber : SPark → Nat
  | .claim _ n => n
  | .bar n => n
  | _ => 0

/-- R130: the first mismatch of a complete join in a block: the waiting unit that raises it, the first in the order lit, shade, fragment
records (log entry 75, DESIGN CHOICE). -/
def joinFault (s : State) (b : Nat) : Option (Nat × Nat × Cause) :=
  (s.block b).beams.findSome? (fun e =>
    if e.2.exited then none
    else e.2.unitIds.findSome? (fun u => if ((e.2.unit u).map (·.join)).getD false
      then match s.tryJoin b e.1 u with | .error c => some (e.1, u, c) | .ok _ => none
      else none))

/-- R130: a waiting unit raises a mismatch; it waits no more, so that ERET executes its LJOIN again. -/
def raiseJoin (b j u : Nat) (c : Cause) (s : State) : State :=
  (s.takeTrap b j c (some u)).setBeam b j (fun x => match x.unit u with | some y => x.setUnit u (some { y with join := false }) | none => x)

/-- R85, R130, R179: takes a trap that the state of a block raises of itself, if its condition holds. -/
def settle (b : Nat) (s : State) : State :=
  let k := s.block b
  if k.halt.isSome || k.ended || !k.resident then s
  else if let some (j, u, c) := s.joinFault b then s.raiseJoin b j u c
  else
    match k.beams.first (fun _ x => uqDeadlock x) with
    | some (j, x) => s.takeTrap b j { grp := 5, code := 1, d0 := x.uq.length + 32 * x.regions.length } none
    | none =>
      if blockDeadlock k then
        let claims := beamMask k (fun x => match x.spark with | .claim _ _ => true | _ => false)
        let bars := beamMask k (fun x => match x.spark with | .bar _ => true | _ => false)
        match k.beams.first (fun _ x => !x.exited && (match x.spark with | .claim _ _ => true | _ => false)) with
        | some (j, x) => (s.takeTrap b j { grp := 5, code := 6, d0 := k.reserve + 1024 * parkNumber x.spark, d1 := claims, d2 := bars } none).tapBeam b j 0x13 (BitVec.ofNat 32 (parkNumber x.spark)) (BitVec.ofNat 32 k.reserve) (BitVec.ofNat 32 x.units) 0
        | none =>
          match k.beams.first (fun _ x => !x.exited) with
          | some (j, x) => (s.takeTrap b j { grp := 5, code := 7, d0 := k.reserve + 1024 * parkNumber x.spark, d1 := claims, d2 := bars } none).tapBeam b j 0x13 (BitVec.ofNat 32 (parkNumber x.spark)) (BitVec.ofNat 32 k.reserve) (BitVec.ofNat 32 x.units) 0
          | none => s
      else s

end State
end Sys2Proof.Machine
end

