-- ==== Sys2Proof/Machine/Engine.lean ====
section
/-! DEFINITION. The stream engine (R188 to R199): the shape record and its tile, the engine words with their checks, and
the movement and completion of entries. -/

namespace Sys2Proof.Machine

/-! ### The shape record and the canonical tile -/

/-- Ceiling division. -/
def cdiv (a b : Nat) : Nat := (a + b - 1) / b

/-- R188: the record in 192 bytes. -/
def Shape.ofBytes (l : List Byte) : Shape where
  base := BitVec.ofNat 64 (numAt l 0 8)
  rank := numAt l 8 1
  fmt := numAt l 9 1
  layout := numAt l 10 1
  slayout := numAt l 11 1
  extent := (List.range 9).map (fun k => numAt l (16 + 4 * k) 4)
  stride := (List.range 9).map (fun k => numAt l (56 + 8 * k) 8)
  box := (List.range 9).map (fun k => numAt l (128 + 2 * k) 2)
  sbase := BitVec.ofNat 64 (numAt l 152 8)
  sstride := numAt l 160 4
  glist := numAt l 168 4
  gcount := numAt l 172 4

/-- R188: a reserved byte of the record is not zero. -/
def shapeReserved (l : List Byte) : Bool :=
  [(12, 4), (52, 4), (146, 6), (164, 4), (176, 16)].any (fun e => numAt l e.1 e.2 != 0)

namespace Shape
/-- R189: element width in bits. -/
def width (h : Shape) : Nat := 2 * 2 ^ h.fmt
/-- Bytes that an element's access takes. -/
def elemBytes (h : Shape) : Nat := max 1 (h.width / 8)
def ext (h : Shape) (k : Nat) : Nat := (h.extent[k]?).getD 1
def str (h : Shape) (k : Nat) : Nat := (h.stride[k]?).getD 0
def bx (h : Shape) (k : Nat) : Nat := (h.box[k]?).getD 1
/-- The product of the box from dimension `k` up. -/
def boxFrom (h : Shape) (k : Nat) : Nat := (h.box.drop k).foldl (· * ·) 1
/-- R191: the dimension that a row runs along. -/
def rowDim (h : Shape) : Nat := if h.layout = 1 then 1 else 0
/-- R191, R195: rows of the tile. -/
def rows (h : Shape) (gather : Bool) : Nat :=
  if gather then h.gcount * h.boxFrom 2 else if h.layout = 1 then h.bx 0 * h.boxFrom 2 else h.boxFrom 1
/-- R191: bytes of a row and its pitch. -/
def rowBytes (h : Shape) : Nat := cdiv (h.bx h.rowDim * h.width) 8
def pitch (h : Shape) : Nat := cdiv h.rowBytes 128 * 128
/-- R192: scale records of a row, the pitch of a scale row, and the offset of the scale tile. -/
def recs (h : Shape) : Nat := if h.slayout = 0 then 0 else cdiv (h.bx 0) 16
def scalePitch (h : Shape) : Nat := cdiv (2 * h.recs) 16 * 16
def scaleOff (h : Shape) (gather : Bool) : Nat := cdiv (h.rows gather * h.pitch) 256 * 256
/-- Bytes of the whole tile in scratch. -/
def tileBytes (h : Shape) (gather : Bool) : Nat :=
  if h.slayout = 0 then h.rows gather * h.pitch else h.scaleOff gather + h.rows gather * h.scalePitch
/-- R197: bytes that one row delivers. -/
def rowCount (h : Shape) : Nat := h.bx h.rowDim * h.width / 8 + 2 * h.recs

/-- R189, R190, R192, R195: is the record with these coordinates in order. The limit of 4,096 rows counts all the rows of a gather,
a gather of no row or of more than 4,096 breaks the record, and `sbase` has no alignment of its own (log entry 78, DESIGN CHOICE). -/
def valid (h : Shape) (crd : List Int) (gather : Bool) : Bool :=
  let ks : List Nat := List.range 9
  let eb := max 1 (h.width / 8)
  let c (k : Nat) : Int := (crd[k]?).getD 0
  1 ≤ h.fmt && h.fmt ≤ 5 && 1 ≤ h.rank && h.rank ≤ 9 && h.layout ≤ 1 && h.slayout ≤ 2
  && ks.all (fun k => 1 ≤ h.bx k && h.bx k ≤ 1024 && 1 ≤ h.ext k && h.ext k < 2 ^ 31)
  && ks.all (fun (k : Nat) => k < h.rank || (h.ext k = 1 && h.bx k = 1 && h.str k = 0 && c k = 0))
  && h.bx 0 * h.width ≤ 16384 && h.rows gather ≤ 4096
  && h.base.toNat % eb = 0 && (ks.drop 1).all (fun k => h.str k % eb = 0)
  && (h.width != 4 || (h.str 0 = 0 && h.ext 0 % 2 = 0 && h.bx 0 % 2 = 0))
  && (h.layout = 0 || (2 ≤ h.rank && 8 ≤ h.width && h.width ≤ 32 && h.slayout = 0))
  && (h.slayout = 0 || h.width ≤ 8)
  && (h.slayout != 2 || (h.str 0 = 0 && h.ext 0 % 16 = 0 && h.bx 0 % 16 = 0))
  && (h.slayout != 1 || ((c 0) % 16 = 0 && h.bx 0 % 16 = 0))
  && (!gather || (h.bx 1 = 1 && h.layout = 0 && 1 ≤ h.gcount && h.gcount ≤ 4096))

/-- R191: the box indices of element `e` of row `q`; for a gather, of the row within its box. -/
def boxIndex (h : Shape) (q e : Nat) : List Nat :=
  let digits (x : Nat) (from_ : Nat) : List Nat :=
    ((h.box.drop from_).foldl (fun (a : List Nat × Nat) b => (a.1 ++ [a.2 % max 1 b], a.2 / max 1 b)) ([], x)).1
  if h.layout = 1 then (q % h.bx 0) :: e :: digits (q / h.bx 0) 2
  else e :: digits q 1

/-- R190: the coordinates of an element. -/
def coords (crd : List Int) (ix : List Nat) : List Int := (List.range 9).map (fun (k : Nat) => (crd[k]?).getD 0 + (((ix[k]?).getD 0 : Nat) : Int))
/-- R190: are coordinates in bounds. -/
def inside (h : Shape) (cs : List Int) : Bool := (List.range 9).all (fun k => 0 ≤ (cs[k]?).getD 0 && (cs[k]?).getD 0 < (h.ext k : Int))
/-- Sum of coordinate times stride from dimension `k` up. -/
def sumFrom (h : Shape) (cs : List Int) (k : Nat) : Int := ((List.range 9).drop k).foldl (fun s d => s + (cs[d]?).getD 0 * (h.str d : Int)) 0
/-- R192: bytes of an interleaved unit. -/
def unitBytes (h : Shape) : Int := if h.width = 8 then 18 else 10
/-- R190: the byte address of an element and, for 4 bits, its nibble. -/
def elemAddr (h : Shape) (cs : List Int) : W64 × Nat :=
  let c0 := (cs[0]?).getD 0
  let a : Int :=
    if h.slayout = 2 then (h.base.toNat : Int) + h.sumFrom cs 1 + c0 / 16 * h.unitBytes + 2 + c0 % 16 * (h.width : Int) / 8
    else if h.width = 4 then (h.base.toNat : Int) + h.sumFrom cs 1 + c0 / 2
    else (h.base.toNat : Int) + h.sumFrom cs 0
  (BitVec.ofInt 64 a, if h.width = 4 then (c0 % 2).toNat else 0)
/-- R192: the byte address of the scale record of the block holding an element. -/
def scaleAddr (h : Shape) (cs : List Int) : W64 :=
  let c0 := (cs[0]?).getD 0
  if h.slayout = 1 then
    let row : Int := ((List.range 9).drop 1).foldr (fun d s => (cs[d]?).getD 0 + (h.ext d : Int) * s) 0
    BitVec.ofInt 64 ((h.sbase.toNat : Int) + 2 * (c0 / 16) + (h.sstride : Int) * row)
  else BitVec.ofInt 64 ((h.base.toNat : Int) + h.sumFrom cs 1 + c0 / 16 * h.unitBytes)
end Shape

/-! ### Issue checks -/

namespace State

/-- R218: the ENGINE detail at issue: queue, matrix flag. -/
def engineCause (code lane queue : Nat) (matrix : Bool) (m : W32) (off : Nat) : Cause :=
  { grp := 6, code := code, d0 := lane + 32 * queue + (if matrix then 128 else 0), d1 := m, d2 := BitVec.ofNat 32 off }

/-- A failed check of an engine or matrix word: its step, code and scratch offset. -/
abbrev Fail := Nat × Nat × Nat

/-- R194, R198: the first failing step in any lane decides; the mask holds the lanes that fail it. -/
def firstFail (fs : List (Nat × Fail)) : Option (Nat × W32 × Nat × Nat) :=
  match fs with
  | [] => none
  | _ =>
    let step := fs.foldl (fun m e => min m e.2.1) 1000
    let bad := fs.filter (fun e => e.2.1 = step)
    match bad with
    | (i, _, code, off) :: _ => some (i, maskOf (fun k => bad.any (fun e => e.1 = k)), code, off)
    | [] => none

/-- Alignment of an offset (code 3) and its bounds (code 4). -/
def alignFail (step off al : Nat) : Option Fail := if off % al = 0 then none else some (step, 3, off)
def boundFail (s : State) (step off n : Nat) : Option Fail := if off + n ≤ s.myBlock.scratchSize then none else some (step, 4, off)
/-- R184, R198: word 3 of a barrier object, of which poison is not consumed here (log entry 36, DEDUCED). -/
def word3Fail (s : State) (step bo : Nat) : Option Fail := if s.myBlock.scratch.num (bo + 12) 4 = 0 then none else some (step, 1, bo)

/-- R198 step 5: is a base not well-formed for the engine. -/
def baseBad (s : State) (a : W64) : Bool :=
  (formFault a).isSome || aperture a == .priv || (aperture a == .cluster && (s.groupBlock s.cur.blk (clusterCore a)).isNone)

/-- The first of several checks that fails. -/
def firstOf (l : List (Option Fail)) : Option Fail := l.findSome? id

/-- The record at a scratch offset (log entry 36, DEDUCED). -/
def shapeAt (s : State) (off : Nat) : List Byte := s.myBlock.scratch.bytes off 192

/-- R198: the checks of SECOPY and SEGATH for one lane's offsets and coordinates. -/
def copyFail (s : State) (gather : Bool) (shp dst bo : Nat) (crd : List Int) : Option Fail :=
  match firstOf [alignFail 1 shp 64, alignFail 1 bo 16, s.boundFail 2 shp 192, s.boundFail 2 bo 16, s.word3Fail 3 bo] with
  | some f => some f
  | none =>
    let raw := s.shapeAt shp
    let h := Shape.ofBytes raw
    if shapeReserved raw then some (3, 1, shp)
    else if !h.valid crd gather then some (4, 5, shp)
    else if s.baseBad h.base || (h.slayout = 1 && s.baseBad h.sbase) then some (5, 2, shp)
    else
      firstOf [alignFail 6 dst (if h.slayout = 0 then 128 else 256), if gather then alignFail 6 h.glist 4 else none,
        s.boundFail 7 dst (h.tileBytes gather), if gather then s.boundFail 7 h.glist (4 * h.gcount) else none]

/-- R193: the nine coordinates of a lane. -/
def crdOf (s : State) (x : LaneOp) (i : Nat) : List Int := (List.range 9).map (fun k => (s.rv (x.d.toNat + k) i).toInt)

/-- Appends an entry to a queue of a core. -/
def enqueueSe (c q : Nat) (e : SEntry) (s : State) : State := s.setCore c (fun k => { k with se := k.se.put q (k.se.get q [] ++ [e]) })

/-- R194, R195: SECOPY and SEGATH. Poison of the index list is not consumed here (log entry 36, DEDUCED). -/
def copyWord (kind : SeKind) (x : LaneOp) (s : State) : State :=
  let gather := kind == .gather
  let q := x.mb 0 2
  let c := s.coreOf s.cur.blk
  let lanes := lanesOf s.cur.act
  let shp (i : Nat) : Nat := (s.src x .a i).toNat
  let dst (i : Nat) : Nat := (s.src x .b i).toNat
  let bo (i : Nat) : Nat := (s.src x .c i).toNat
  match firstFail (lanes.filterMap (fun i => (s.copyFail gather (shp i) (dst i) (bo i) (s.crdOf x i)).map (fun f => (i, f)))) with
  | some (i, m, code, off) => s.trapLane (engineCause code i q false m off)
  | none =>
    if ((s.core c).se.get q []).length + lanes.length > 32 then s.flow .stay
    else
      (lanes.foldl (fun t i =>
        let h := Shape.ofBytes (s.shapeAt (shp i))
        let ix : List Int := if gather then (List.range h.gcount).map (fun g => signedOf 32 (s.myBlock.scratch.num (h.glist + 4 * g) 4)) else []
        let e : SEntry := { kind := kind, id := t.fresh.1, blk := s.cur.blk, beam := s.cur.beam, lane := i, shape := h, crd := s.crdOf x i, index := ix, dst := dst i, bo := bo i }
        t.fresh.2.enqueueSe c q e) s).flow .go

/-- Changes an entry of a queue. -/
def setEntry (c q id : Nat) (f : SEntry → SEntry) (s : State) : State :=
  s.setCore c (fun k => { k with se := k.se.put q ((k.se.get q []).map (fun e => if e.id = id then f e else e)) })
def dropEntry (c q id : Nat) (s : State) : State :=
  s.setCore c (fun k => { k with se := k.se.put q ((k.se.get q []).filter (fun e => e.id != id)) })

/-- R196: the fence's queues. -/
def fenceQueues (m : Nat) : List Nat := [0, 1, 2, 3].filter (fun q => m.testBit q)

/-- R196: SEFENCE: one entry in every named queue for each lane. -/
def fenceWord (x : LaneOp) (s : State) : State :=
  let m := x.mb 0 4
  let qs := fenceQueues m
  let has := x.mb 4 1 == 1
  let c := s.coreOf s.cur.blk
  let lanes := lanesOf s.cur.act
  let bo (i : Nat) : Nat := if has then (s.src x .d i).toNat else 0
  let fail (i : Nat) : Option Fail := if has then firstOf [alignFail 1 (bo i) 16, s.boundFail 2 (bo i) 16, s.word3Fail 3 (bo i)] else none
  match firstFail (lanes.filterMap (fun i => (fail i).map (fun f => (i, f)))) with
  | some (i, fld, code, off) => s.trapLane (engineCause code i (qs[0]?.getD 0) false fld off)
  | none =>
    if qs.any (fun q => ((s.core c).se.get q []).length + lanes.length > 32) then s.flow .stay
    else
      (lanes.foldl (fun t i =>
        let e : SEntry := { kind := .fence, id := t.fresh.1, blk := s.cur.blk, beam := s.cur.beam, lane := i, bo := bo i, hasBo := has, mask := m }
        qs.foldl (fun t q => t.enqueueSe c q e) t.fresh.2) s).flow .go

/-! ### Moving rows -/

/-- What one element access of an entry comes to; an abort keeps the address of an access that consumed an error. It waits for an answer, or
(`full`) for space in the dirty log. -/
inductive Eng where
  | ok (v : Nat) (s : State)
  | abort (grp code addr : Nat)
  | fault (va page mapping : Nat) (gpa : Option Nat)
  | wait (s : State)
  | full (va : Nat) (s : State)

/-- R199: where an engine's access goes. -/
def engLocate (s : State) (b : Nat) (a : W64) (n : Nat) (write : Bool) : Xl :=
  if (formFault a).isSome || aperture a == .priv then .trap 7
  else match s.boundsFault b a n with
    | some _ => .trap 7
    | none => s.locate b 0 0 a write

/-- R21: the aligned 8-byte units that hold ranges of (address, bytes), each once: its number, and the first address in it. -/
def unitsAt (rs : List (W64 × Nat)) : List (Nat × W64) :=
  (rs.flatMap (fun r => (List.range r.2).map (fun i => let a := r.1 + BitVec.ofNat 64 i; (a.toNat / 8, a)))).eraseDupsBy (fun x y => x.1 == y.1)

/-- R161, R355: what a remote read of an entry comes to. -/
def engAnswer (b : Nat) (a : W64) (l : Loc) (r : Rem) (s : State) : Eng :=
  match r with
  | .wait t => .wait t
  | .err _ => .abort 6 7 0
  | .ok bs poison => if poison then .abort 8 1 a.toNat else .ok (ofBytes (s.seen b l (bs.take 8))) s

/-- R21: an entry's read of an aligned 8-byte unit, one event, for an access at `a`. One that has been sent goes where it went (R271). -/
def engRead (c q b u : Nat) (a : W64) (s : State) : Eng :=
  match s.asked (.engine c q) 1 (8 * u) 8 with
  | some (l, r) => s.engAnswer b a l r
  | none =>
  match s.engLocate b (BitVec.ofNat 64 (8 * u)) 8 false with
  | .trap 8 => .abort 6 7 0
  | .trap _ => .abort 6 6 0
  | .fault page mp gpa => .fault a.toNat page mp gpa
  | .ok l _ =>
    match l.sp with
    | .remote node => s.engAnswer b a l (s.remote (.engine c q) 1 0 node l.addr 8 [] (8 * u))
    | _ => if s.poisonedAt l 8 then .abort 8 1 a.toNat else .ok (ofBytes (s.view b l 8)) s

/-- Reads the units of a list in order, each once. -/
def readUnits (c q b : Nat) : List (Nat × W64) → Tab Nat → State → Except Eng (Tab Nat × State)
  | [], acc, s => .ok (acc, s)
  | (u, a) :: r, acc, s =>
    match s.engRead c q b u a with
    | .ok v t => readUnits c q b r (acc.put u v) t
    | x => .error x

/-- The `n` bytes at an address among units that have been read, as a number. -/
def fromUnits (us : Tab Nat) (a : W64) (n : Nat) : Nat :=
  ofBytes ((List.range n).map (fun i =>
    let x := (a + BitVec.ofNat 64 i).toNat
    BitVec.ofNat 8 (us.get (x / 8) 0 / 256 ^ (x % 8))))

/-- One store of a row: its address, size and data. -/
abbrev RowStore := W64 × Nat × Nat

/-- R21: the bytes that the stores of a row write in each aligned 8-byte unit; a later store of the row wins. -/
def rowUnits (ws : List RowStore) : List (Nat × List (Option Byte)) :=
  let put (t : Tab (List (Option Byte))) (w : RowStore) : Tab (List (Option Byte)) :=
    (toBytes w.2.1 w.2.2).zipIdx.foldl (fun t x =>
      let y := (w.1 + BitVec.ofNat 64 x.2).toNat
      t.put (y / 8) ((t.get (y / 8) (List.replicate 8 none)).set (y % 8) (some x.1))) t
  let all := ws.foldl put []
  (unitsAt (ws.map (fun w => (w.1, w.2.1)))).map (fun u => (u.1, all.get u.1 []))

/-- R199, R239: checks every unit of a row: those of a gate enter it, and the answer is where the others go; or why the row is not
stored. -/
def placeUnits (b : Nat) : List (W64 × List Byte) → List RowUnit → State → Except Eng (List RowUnit × State)
  | [], out, s => .ok (out, s)
  | (a, bs) :: r, out, s =>
    match s.engLocate b a bs.length true with
    | .trap 8 => .error (.abort 6 7 0)
    | .trap _ => .error (.abort 6 6 0)
    | .fault page mp gpa => .error (.fault a.toNat page mp gpa)
    | .ok l page =>
      if s.gated b l then
        if s.gateFull b l then .error (.abort 8 3 0) else placeUnits b r out (s.gateWrite b l page 1 bs)
      else placeUnits b r (out ++ [{ loc := l, va := a, data := bs }]) s

/-- R272 to R274: the dirty-log entries of a row's units, before any of its stores; one that finds no room waits. -/
def logUnits (c q b : Nat) : List (W64 × List Byte) → State → Except Eng State
  | [], s => .ok s
  | (a, bs) :: r, s =>
    match s.engLocate b a bs.length true with
    | .ok l page =>
      if s.gated b l then logUnits c q b r s
      else if s.dirtyFull page (some (2 ^ 32, c, q)) then .error (.full a.toNat (s.parkFull page (some (2 ^ 32, c, q))))
      else logUnits c q b r (s.logDirty page 1 (s.cidOf (s.ctxOf b)))
    | _ => logUnits c q b r s

/-- The package to which a unit of a row goes, if it is another one. -/
def farNode (u : RowUnit) : Option Nat := match u.loc.sp with | .remote n => some n | _ => none

/-- R199, R355: requests of a row to other packages, each of which `ask` makes or takes the answer of: is every one answered; a refusal aborts
the entry. -/
def askUnits (ask : RowUnit → Nat → State → Rem) : List RowUnit → Bool → State → Except Eng (Bool × State)
  | [], ready, s => .ok (ready, s)
  | u :: r, ready, s =>
    match farNode u with
    | none => askUnits ask r ready s
    | some n =>
      match ask u n s with
      | .wait t => askUnits ask r false t
      | .err _ => .error (.abort 6 7 0)
      | .ok _ _ => askUnits ask r ready s

/-- R355: the store of a unit at another package. -/
def sendUnit (c q : Nat) (u : RowUnit) (n : Nat) (s : State) : Rem := s.remote (.engine c q) 2 0 n u.loc.addr u.data.length u.data u.va.toNat

/-- R199, R355: where several units of a row home on other packages, each is first asked for there: a row of which one is refused writes nothing
(log entry 76, DESIGN CHOICE). -/
def probeUnit (c q : Nat) (u : RowUnit) (n : Nat) (s : State) : Rem := s.probe (.engine c q) n u.loc.addr u.data.length u.va.toNat

/-- R241: the gated stores of a row enter their queue's signature, in order. -/
def signRow (q b : Nat) (ws : List RowStore) (s : State) : State :=
  ws.foldl (fun s w =>
    match s.engLocate b w.1 w.2.1 true with
    | .ok l _ =>
      if s.gated b l then s.setBlock b (fun k => { k with mirror := k.mirror.map (fun m => { m with qsig := m.qsig.put q (crc64 (m.qsig.get q 0) (sigRecord w.1 (toBytes w.2.1 w.2.2))) }) })
      else s
    | _ => s) s

/-- The units of a row's stores, as (address, bytes). -/
def storeUnits (ws : List RowStore) : List (W64 × List Byte) := (rowUnits ws).flatMap (fun u => (unitRuns u.2).map (fun r => (BitVec.ofNat 64 (8 * u.1 + r.1), r.2)))

/-- R195, R199: a row is to be stored: all of its units are checked, logged and asked for, and then the whole row goes out. The answer is the
units that are still to be stored. -/
def beginRow (c q b : Nat) (ws : List RowStore) (s : State) : Except Eng (List RowUnit × State) :=
  let us := storeUnits ws
  match placeUnits b us [] s with
  | .error x => .error x
  | .ok (out, _) =>
    match (if 2 ≤ out.countP (fun u => (farNode u).isSome) then askUnits (probeUnit c q) out true s else .ok (true, s)) with
    | .error x => .error x
    | .ok (false, t) => .error (.wait t)
    | .ok (true, s) =>
      match logUnits c q b us s with
      | .error x => .error x
      | .ok s => (placeUnits b us [] s).map (fun r => (r.1, (r.2.signRow q b ws).unpark (2 ^ 32, c, q)))

/-- R21, R199, R271: the units of a row that are to be stored: those for other packages are sent, and once they are acknowledged the first `n` of
the others are stored. The answer is what is left. -/
def pushRow (c q n : Nat) (out : List RowUnit) (s : State) : Except Eng (List RowUnit × State) :=
  match askUnits (sendUnit c q) out true s with
  | .error x => .error x
  | .ok (false, t) => .error (.wait t)
  | .ok (true, t) =>
    let here := out.filter (fun u => (farNode u).isNone)
    .ok (here.drop n, (here.take n).foldl (fun s u => s.poke u.loc u.data) t)

/-- The coordinates of element `e` of row `q` of an entry: a gather takes the row's box from the index list. -/
def SEntryCoords (e : SEntry) (q i : Nat) : List Int :=
  if e.kind = .gather then
    let r := max 1 (e.shape.boxFrom 2)
    let crd := e.crd.set 1 ((e.index[q / r]?).getD 0)
    Shape.coords crd (e.shape.boxIndex (q % r) i)
  else Shape.coords e.crd (e.shape.boxIndex q i)

/-- R190: the addresses, with the nibble for 4 bits, of the elements of a row; none where an element is out of bounds. -/
def rowElems (e : SEntry) (row : Nat) : List (Option (W64 × Nat)) :=
  (List.range (e.shape.bx e.shape.rowDim)).map (fun i =>
    let cs := SEntryCoords e row i
    if e.shape.inside cs then some (e.shape.elemAddr cs) else none)

/-- R192: the same of its scale records: each that of the unit in which its block's first element lies (log entry 78, DESIGN CHOICE). -/
def rowScales (e : SEntry) (row : Nat) : List (Option W64) :=
  (List.range e.shape.recs).map (fun i =>
    let cs := SEntryCoords e row (16 * i)
    if e.shape.inside cs then some (e.shape.scaleAddr cs) else none)

/-- R190: the bytes that 4-bit elements write: address, nibbles written (1 low, 2 high), value. -/
def nibbleBytes : List (W64 × Nat × Nat) → List (W64 × Nat × Nat)
  | (a, 0, v) :: (b, 1, w) :: r => if a = b then (a, 3, v + 16 * w) :: nibbleBytes r else (a, 1, v) :: nibbleBytes ((b, 1, w) :: r)
  | (a, n, v) :: r => (if n = 0 then (a, 1, v) else (a, 2, 16 * v)) :: nibbleBytes r
  | [] => []

/-- R63, R191: codes of `w` bits packed into `n` bytes, the rest zero. -/
def packBytes (w n : Nat) (vs : List Nat) : List Byte := toBytes n (vs.mapIdx (fun i v => v * 2 ^ (w * i))).sum
/-- The codes of `w` bits in a number. -/
def unpackCodes (w n x : Nat) : List Nat := (List.range n).map (fun i => x / 2 ^ (w * i) % 2 ^ w)

/-- The stores of the in-bounds elements of a row with the codes `vs`, and of its scale records `rs` (R190, R192). A byte of which a
row writes one 4-bit element keeps the other (log entry 61, DEDUCED). -/
def rowStores (c q : Nat) (e : SEntry) (row : Nat) (vs rs : List Nat) (s : State) : Except Eng (List RowStore × State) :=
  let els := ((rowElems e row).zip vs).filterMap (fun x => x.1.map (fun p => (p.1, p.2, x.2)))
  let scales : List RowStore := ((rowScales e row).zip rs).filterMap (fun x => x.1.map (fun a => (a, 2, x.2)))
  if e.shape.width = 4 then
    let bs := nibbleBytes els
    match readUnits c q e.blk (unitsAt ((bs.filter (fun x => x.2.1 != 3)).map (fun x => (x.1, 1)))) [] s with
    | .error x => .error x
    | .ok (us, t) =>
      .ok (bs.map (fun x =>
        let old := fromUnits us x.1 1
        (x.1, 1, if x.2.1 = 1 then old / 16 * 16 + x.2.2 else if x.2.1 = 2 then old % 16 + x.2.2 else x.2.2)) ++ scales, t)
  else .ok (els.map (fun x => (x.1, e.shape.elemBytes, x.2.2)) ++ scales, s)

/-- R190, R192: the units that a row of a load reads. -/
def loadUnits (e : SEntry) (row : Nat) : List (Nat × W64) :=
  unitsAt (((rowElems e row).filterMap id).map (fun p => (p.1, e.shape.elemBytes)) ++ ((rowScales e row).filterMap id).map (fun a => (a, 2)))
/-- R190 to R192: the bytes of a row and of its scale row in scratch, from the units read. Out-of-bounds elements read 0 with no access,
out-of-bounds blocks 0x7F, 0x00. -/
def loadBytes (e : SEntry) (row : Nat) (us : Tab Nat) : List Byte × List Byte :=
  let h := e.shape
  let code (p : W64 × Nat) : Nat := if h.width = 4 then fromUnits us p.1 1 / 16 ^ p.2 % 16 else fromUnits us p.1 h.elemBytes
  (packBytes h.width h.pitch ((rowElems e row).map (fun p => (p.map code).getD 0)),
    if h.recs > 0 then packBytes 16 h.scalePitch ((rowScales e row).map (fun p => (p.map (fun a => fromUnits us a 2)).getD 0x7F)) else [])
/-- R191: where a row of an entry's tile, and its scale row, stand in scratch. -/
def rowAt (e : SEntry) (row : Nat) : Loc := { sp := .scratch e.blk, addr := e.dst + row * e.shape.pitch }
def scaleRowAt (e : SEntry) (row : Nat) : Loc := { sp := .scratch e.blk, addr := e.dst + e.shape.scaleOff (e.kind == .gather) + row * e.shape.scalePitch }

/-- R195: the 8-byte units of scratch that a row of a store-out reads. -/
def rowSource (e : SEntry) (row : Nat) : List (Nat × W64) :=
  let h := e.shape
  unitsAt ((BitVec.ofNat 64 (rowAt e row).addr, h.rowBytes) :: (if h.recs > 0 then [(BitVec.ofNat 64 (scaleRowAt e row).addr, 2 * h.recs)] else []))

/-- R21, R161: reads units of an entry's own scratch; none where one holds poison. -/
def readScratch (b : Nat) (us : List (Nat × W64)) (got : Tab Nat) (s : State) : Option (Tab Nat) :=
  us.foldl (fun r u => r.bind (fun t =>
    let l : Loc := { sp := .scratch b, addr := 8 * u.1 }
    if s.poisonedAt l 8 then none else some (t.put u.1 (ofBytes (s.peek l 8))))) (some got)

/-- R195, R199: what a row of a store-out writes, or why it does not; `e.got` are the units of scratch that it has read. -/
def rowOut (c q : Nat) (e : SEntry) (row : Nat) (s : State) : Except Eng (List RowStore × State) :=
  let h := e.shape
  match s.readScratch e.blk ((rowSource e row).filter (fun u => (e.got.find u.1).isNone)) e.got with
  | none => .error (.abort 8 1 (rowAt e row).addr)
  | some got =>
    let codes (l : Loc) (w n : Nat) : List Nat := unpackCodes w n (fromUnits got (BitVec.ofNat 64 l.addr) (cdiv (w * n) 8))
    s.rowStores c q e row (codes (rowAt e row) h.width (h.bx h.rowDim)) (codes (scaleRowAt e row) 16 h.recs)

/-- R195: moves row `row` of an entry, from the units that it has read and written of it. -/
def moveRow (c q : Nat) (e : SEntry) (row : Nat) (s : State) : Except Eng State :=
  if e.kind = .store then
    let begun : Except Eng (List RowUnit × State) :=
      if e.out.isEmpty then (match s.rowOut c q e row with | .error x => .error x | .ok (ws, t) => t.beginRow c q e.blk ws) else .ok (e.out, s)
    match begun with
    | .error x => .error x
    | .ok (out, t) =>
      match t.pushRow c q out.length out with
      | .ok (_, u) => .ok u
      | .error (.wait u) => .error (.wait (u.setEntry c q e.id (fun x => { x with out := out })))
      | .error x => .error x
  else
    match readUnits c q e.blk ((loadUnits e row).filter (fun u => (e.got.find u.1).isNone)) e.got s with
    | .error x => .error x
    | .ok (us, t) =>
      let bs := loadBytes e row us
      let at_ := rowAt e row
      let t := t.poke { at_ with addr := at_.addr + 8 * e.put } (bs.1.drop (8 * e.put))
      .ok (if e.shape.recs > 0 then t.poke (scaleRowAt e row) bs.2 else t)

/-- R199: is an entry of a queue held after an abort of its block. -/
def heldEntry (s : State) (q : Nat) (e : SEntry) : Bool := (s.block e.blk).heldSe.contains q

/-- R226: are the engines of an entry's block frozen by the debugger. -/
def frozenBlock (s : State) (b : Nat) : Bool := match (s.block b).halt with | some h => h.frozen | none => false
/-- R222, R224: does a SHUTTER stop the entries of a block: those that have not started do not start. -/
def quietBlock (s : State) (b : Nat) : Bool := match (s.block b).halt with | some h => h.quiet | none => false

/-- R195: does an entry stand within a row. -/
def inRow (e : SEntry) : Bool := e.started && (!e.got.isEmpty || 0 < e.put || !e.out.isEmpty)

/-- R194, R196: the entry of a queue that may move: the first one not done, past held entries of other blocks, behind no
fence. A frozen engine ends its row (R226), and a SHUTTER lets none start (R224). -/
def eligible (s : State) (c q : Nat) : Option SEntry :=
  match ((s.core c).se.get q []).find? (fun e => !e.done && !s.heldEntry q e) with
  | some e => if e.kind = .fence || (s.frozenBlock e.blk && !inRow e) || (s.quietBlock e.blk && !e.started) then none else some e
  | none => none
/-- R226: the rows that an entry may move now: all of them, or, frozen, the one that it stands in. -/
def rowsNow (s : State) (e : SEntry) : Nat := if s.frozenBlock e.blk then 1 else 4097

/-- R218: the detail of a failure after issue. -/
def afterCause (grp code q : Nat) (e : SEntry) : Cause :=
  { grp := grp, code := code, d0 := e.lane + 32 * q + 256 * e.beam,
    d1 := BitVec.ofNat 32 (if e.kind = .fence then e.bo / 16 * 65536 else e.prog % 65536 + e.bo / 16 * 65536),
    d2 := BitVec.ofNat 32 (if e.kind = .fence then 0 else e.prog * e.shape.rowCount), async := true }

/-- R283, R284: an event of the stream-engine family. -/
def tapEngine (e : SEntry) (q variant : Nat) (s : State) : State :=
  let f := s.takeFree
  f.2.tapBeam e.blk e.beam (0x1C + variant) (BitVec.ofNat 32 q) (BitVec.ofNat 32 (e.prog * e.shape.rowCount)) (BitVec.ofNat 32 e.prog) (Config.tapClk f.1)

/-- R199: an entry aborts: it makes no completion, its block's later entries of the queue are held, and the block traps. -/
def abortEntry (c q : Nat) (e : SEntry) (grp code addr : Nat) (s : State) : State :=
  let s := ((s.dropEntry c q e.id).dropReqs (s.tenantOf e.blk) (· == .engine c q)).setBlock e.blk (fun k => { k with heldSe := if k.heldSe.contains q then k.heldSe else k.heldSe ++ [q] })
  let s := s.tapEngine e q 3
  if grp = 8 && code = 3 then s.asyncTrap e.blk e.beam gateCause
  else
    let s := if grp = 8 then s.postConsumed e.blk e.beam 2 addr 0 (if e.kind = .store then none else match s.engLocate e.blk (BitVec.ofNat 64 addr) 8 false with | .ok l _ => some l | _ => none) else s
    s.asyncTrap e.blk e.beam (afterCause grp code q e)

/-- R195: moves rows from `prog` on until the entry has moved them all or cannot go on. A row that waits for space in the dirty log stalls as
at a page fault, at no page of its own (R274). -/
def runRows (c q : Nat) (e : SEntry) : Nat → State → State
  | 0, s => s
  | k + 1, s =>
    if e.shape.rows (e.kind == .gather) ≤ e.prog then s.setEntry c q e.id (fun x => { x with done := true, started := true, prog := e.prog, got := [], put := 0, out := [], stall := none })
    else
      match s.moveRow c q e e.prog with
      | .ok t => runRows c q { e with prog := e.prog + 1, got := [], put := 0, out := [] } k ((t.forget (.engine c q)).setEntry c q e.id (fun x => { x with prog := e.prog + 1, got := [], put := 0, out := [], stall := none }))
      | .error (.wait t) => t
      | .error (.full va t) =>
        let at_ := some (2 ^ 64 + va / 65536)
        let t := t.setEntry c q e.id (fun x => { x with stall := at_ })
        if e.stall = at_ then t else (t.tapEngine e q 2).tapFault e.blk e.beam va
      | .error (.abort g code addr) => s.abortEntry c q e g code addr
      | .error (.fault va page mp gpa) =>
        if e.stall = some page then s
        else
          let s := ((s.setEntry c q e.id (fun x => { x with stall := some page })).tapEngine e q 2).tapFault e.blk e.beam va
          (match gpa with
            | some g => s.postStage2 e.blk g
            | none => s.postFault e.blk e.beam 2 va mp)
      | .error (.ok _ t) => t

/-- R195: an entry that has not started starts, with its event. -/
def startEntry (c q : Nat) (e : SEntry) (s : State) : State := if e.started then s else (s.setEntry c q e.id (fun x => { x with started := true })).tapEngine e q 0

/-- R21, R213: the eligible entry starts, if it has not, and the next `n` 8-byte units of the row that it moves are read, or, when all are,
written: agents may fall between. Rows of mirrored blocks are moved whole (log entry 20, DESIGN CHOICE). -/
def rowPart (c q n : Nat) (s : State) : State :=
  match s.eligible c q with
  | none => s
  | some e =>
    let row := e.prog
    if e.stall.isSome || (s.block e.blk).mirror.isSome || e.shape.rows (e.kind == .gather) ≤ row then s
    else
      let s := s.startEntry c q e
      let set (f : SEntry → SEntry) (s : State) : State := s.setEntry c q e.id f
      if e.kind = .store then
        if e.out.isEmpty then
          match (rowSource e row).filter (fun u => (e.got.find u.1).isNone) with
          | [] =>
            (match s.rowOut c q e row with
              | .ok (ws, t) => (match t.beginRow c q e.blk ws with | .ok (out, t) => set (fun x => { x with out := out }) t | .error (.wait t) => t | .error _ => s)
              | .error (.wait t) => t
              | .error _ => s)
          | us => (match s.readScratch e.blk (us.take n) e.got with | some got => set (fun x => { x with got := got }) s | none => s)
        else
          match s.pushRow c q n e.out with
          | .ok ([], _) => s
          | .ok (out, t) => set (fun x => { x with out := out }) t
          | .error (.wait t) => t
          | .error _ => s
      else
        match (loadUnits e row).filter (fun u => (e.got.find u.1).isNone) with
        | [] =>
          let bs := (((loadBytes e row e.got).1).drop (8 * e.put)).take (8 * n)
          set (fun x => { x with put := e.put + bs.length / 8 }) (s.poke { rowAt e row with addr := (rowAt e row).addr + 8 * e.put } bs)
        | us =>
          match readUnits c q e.blk (us.take n) e.got s with
          | .ok (got, t) => set (fun x => { x with got := got }) t
          | .error (.wait t) => t
          | .error _ => s

/-- R271: an entry's row that has been begun is moved to its end. -/
def endRows (s : State) : State :=
  s.cores.foldl (fun s c => [0, 1, 2, 3].foldl (fun s q =>
    match s.eligible c.1 q with
    | some e => if inRow e then s.runRows c.1 q e 1 else s
    | none => s) s) s

/-- R197, R161: an engine's completion at a barrier object is accepted (R185), unless the object holds poison. -/
def completeAt (blk beam bo n consumer : Nat) (bad : Cause) (s : State) : State :=
  if s.boPoisoned blk bo then (s.postConsumed blk beam consumer bo 0 none).asyncTrap blk beam bad
  else s.acceptBo { blk := blk, beam := beam, off := bo, op := .deliver n }

end State

/-- R195 SECOPY. -/
def execSecopy (x : LaneOp) (s : State) : Out := .next (s.copyWord (if x.mb 2 1 = 1 then .store else .load) x)
/-- R195 SEGATH. -/
def execSegath (x : LaneOp) (s : State) : Out := .next (s.copyWord .gather x)
/-- R196 SEFENCE. -/
def execSefence (x : LaneOp) (s : State) : Out := .next (s.fenceWord x)

/-- R195 SE_ENTRY_START: the eligible entry of a queue starts, or goes on after waiting, and moves its rows in order. -/
def execSeEntryStart (core q : Nat) (s : State) : Out :=
  .next (match s.eligible core q with
    | some e =>
      if e.stall.isSome then s
      else
        (s.startEntry core q e).runRows core q { e with started := true } (s.rowsNow e)
    | none => s)

/-- R199 SE_FAULT_RESUME: the page that stalls a queue's entry translates now, and the entry resumes at row `prog`. -/
def execSeFaultResume (core q : Nat) (s : State) : Out :=
  .next (match s.eligible core q with
    | some e =>
      match e.stall with
      | some p =>
        (match s.xlat (s.ctxOf e.blk) (s.tenantOf e.blk) (p * 65536) false with
          | .fault _ _ _ => s
          | _ => s.runRows core q e (s.rowsNow e))
      | none => s
    | none => s)

/-- R196 SEFENCE_ARRIVE: the fence at the head of a queue stands at the head of every queue it names; it leaves them, and
arrives at its object as a completion of 0 bytes. -/
def execSefenceArrive (core q : Nat) (s : State) : Out :=
  .next (match (s.core core).se.get q [] with
    | e :: _ =>
      if e.kind = .fence && !s.frozenBlock e.blk && !s.quietBlock e.blk
          && (State.fenceQueues e.mask).all (fun p => !s.heldEntry p e && (match (s.core core).se.get p [] with | f :: _ => f.id = e.id | [] => false)) then
        let q := (State.fenceQueues e.mask)[0]?.getD 0
        let t := (State.fenceQueues e.mask).foldl (fun t p => t.dropEntry core p e.id) (s.tapEngine e q 0)
        (if e.hasBo then t.completeAt e.blk e.beam e.bo 0 2 (State.afterCause 8 1 q e) else t).tapEngine e q 1
      else s
    | [] => s)

end Sys2Proof.Machine
end

