-- ==== Sys2Proof/Machine/Lantern.lean ====
section
/-! DEFINITION. The Lantern (R283 to R295): its words, the runs of filters with their budgets, windows and exports. -/

namespace Sys2Proof.Machine

/-- R287: SRAM bytes of an object. -/
def Decl.size (d : Decl) : Nat :=
  match d.kind with | 1 => 1024 | 2 => 4096 | 3 => 8 | 4 => 16 * 2 ^ d.mode + 8 | _ => 32

/-- R289: the bin of a value. -/
def Decl.bin (d : Decl) (x : W32) : Nat :=
  if x.toNat < d.param.toNat then 0
  else
    let y := x.toNat - d.param.toNat
    if d.mode = 0 then min 255 (y / 2 ^ d.shift) else if y = 0 then 0 else min 255 (1 + Nat.log2 y / 2 ^ d.shift)

/-- R289: the cell of a key in row `r` of a sketch. -/
def sketchCell (r : Nat) (x : W32) : Nat :=
  let k : W32 := match r with | 0 => 0x00000000 | 1 => 0x5A173C4D | 2 => 0xB3E891F2 | _ => 0x6C0D27A9
  256 * r + (((x ^^^ k) * 0x9E3779B1) >>> 24).toNat

/-- R289: saturating addition. -/
def satAdd (a b : W32) : W32 := BitVec.ofNat 32 (min (2 ^ 32 - 1) (a.toNat + b.toNat))

/-- R292: an object as exported. -/
def LObj.bytes (d : Decl) (o : LObj) : List Byte :=
  let words (n : Nat) : List Byte := (List.range n).flatMap (fun i => toBytes 4 (o.cells.get i 0).toNat)
  match d.kind with
  | 1 => words 256
  | 2 => words 1024
  | 3 => toBytes 8 o.total.toNat
  | 4 => words (4 * 2 ^ d.mode) ++ toBytes 8 o.total.toNat
  | _ => toBytes 8 o.last.toNat ++ toBytes 8 o.fires.toNat ++ toBytes 8 o.suppressed.toNat ++ toBytes 8 (if o.armed then 1 else 0)

/-- R285: may a filter run on an event of a type and a tenant. -/
def Filter.takes (f : Filter) (code tid : Nat) : Bool := f.evtype = code && (f.tenant = 0 || f.tenant = tid)

namespace State

/-- The Lantern whose word runs. -/
def lan (s : State) : Lantern := s.lantern s.cur.die
/-- R288: register `n` of the run. -/
def rg (s : State) (n : BitVec 3) : W32 := s.lan.g.get n.toNat 0
/-- R288: the run goes on `k` words further. -/
def gstep (k : Nat) (s : State) : State := s.setLantern s.cur.die (fun l => { l with wordIx := l.wordIx + k, words := l.words + 1 })
/-- R288: sets a register, and the run goes on. -/
def gset (n : BitVec 3) (x : W32) (s : State) : State := (s.setLantern s.cur.die (fun l => { l with g := l.g.put n.toNat x })).gstep 1
/-- R284: a field of the event. -/
def evField (s : State) (f : Nat) : W32 := (s.lan.evt[f]?).getD 0
/-- The event's `reftime`. -/
def evTime (s : State) : W64 := (s.evField 2).setWidth 64 <<< 32 ||| (s.evField 1).setWidth 64

/-- Changes object `o` of the filter that runs, if it is declared; the run goes on. -/
def gobj (o : BitVec 12) (f : Decl → LObj → LObj) (s : State) : State :=
  (match s.lan.run with
    | some r =>
      (match s.filters.find r with
        | some x =>
          (match x.decls[o.toNat]? with
            | some d => { s with filters := s.filters.put r { x with objs := x.objs.put o.toNat (f d (x.objs.get o.toNat {})) } }
            | none => s)
        | none => s)
    | none => s).gstep 1

/-- R288: a binary word. -/
def gbin (d : BitVec 3) (f : W32 → W32 → W32) (a : BitVec 3) (b : W32) (s : State) : Out := .next (s.gset d (f (s.rg a) b))

/-- R288: shifts, with 0 at 32 and beyond. -/
def gshift (left : Bool) (x b : W32) : W32 := if b.toNat ≥ 32 then 0 else if left then x <<< b.toNat else x >>> b.toNat
def gmin2 (x y : W32) : W32 := if x.ult y then x else y
def gmax2 (x y : W32) : W32 := if x.ult y then y else x

/-- R291: the end of a run: its words are charged to its tenant's budget. -/
def endRun (d : Nat) (s : State) : State :=
  match (s.lantern d).run with
  | none => s
  | some r =>
    let t := (s.filters.get r default).tenant
    s.setLantern d (fun l =>
      let l := { l with run := none, g := [], wordIx := 0, words := 0 }
      if t = 0 then l else { l with spent := l.spent.put t (l.spent.get t 0 + (s.lantern d).words) })

/-- R292: an export write: to a hypervisor filter's host-physical address, or through the tenant's stage 2; one that faults
or finds no mapping is dropped. The answer is whether it is performed, or its home has answered (R356). -/
def exportPut (id tenant a : Nat) (bs : List Byte) (s : State) : Bool × State :=
  if tenant = 0 then (true, s.poke { sp := .host, addr := a } bs)
  else
    match s.asked (.exportOf id) 2 a bs.length with
    | some (_, .wait t) => (false, t)
    | some _ => (true, s)
    | none =>
      match s.stage2 tenant a with
      | some (_, m) =>
        if m.conv && !m.absent && !m.rebuild && m.w then
          match (m.target (a - m.va)).sp with
          | .remote node => (match s.remote (.exportOf id) 2 0 node (m.target (a - m.va)).addr bs.length bs a with | .wait t => (false, t) | _ => (true, s))
          | _ => (true, s.poke (m.target (a - m.va)) bs)
        else (true, s)
      | none => (true, s)

/-- The same for a longer area, a line at a time. -/
def exportArea (id tenant a : Nat) : Nat → List Byte → Bool × State → Bool × State
  | 0, _, r => r
  | n + 1, bs, r =>
    if bs.isEmpty then r
    else
      let x := r.2.exportPut id tenant a (bs.take 64)
      exportArea id tenant (a + 64) n (bs.drop 64) (r.1 && x.1, x.2)

/-- R292: the drops that a filter's export counts from. -/
def dropsOf (s : State) (f : Filter) : W64 :=
  if f.tenant = 0 then (s.lantern f.die).drops.get f.evtype 0 else (s.lantern f.die).tdrops.get f.tenant 0

/-- R286: detaches a filter; a run of it ends. -/
def detachFilter (id : Nat) (s : State) : State :=
  let d := (s.filters.get id default).die
  let s := if (s.lantern d).run = some id then s.endRun d else s
  let s := (s.setLantern d (fun l => { l with todo := l.todo.filter (· != id) })).dropReqs (s.filters.get id default).tenant (fun w => w == .filter id || w == .exportOf id)
  { s with filters := s.filters.del id }

/-- R292: is an export of the die owed, which comes before anything else of the next window. -/
def exportDue (s : State) (d : Nat) : Bool := s.filters.any (fun f => f.2.die = d && f.2.due)

/-- R291, R292: is the die's window the current one. -/
def windowNow (s : State) (d : Nat) : Bool := (s.lantern d).window = s.now / 100000

end State

/-- R288 GLDE. -/
def execGlde (d : BitVec 3) (f : BitVec 6) (s : State) : Out := .next (s.gset d (s.evField f.toNat))
/-- R288 GLDC. -/
def execGldc (d : BitVec 3) (k : BitVec 24) (s : State) : Out := .next (s.gset d (k.setWidth 32))
/-- R288 GADD. -/
def execGadd (d a b : BitVec 3) (s : State) : Out := s.gbin d (· + ·) a (s.rg b)
/-- R288 GADD with an immediate. -/
def execGaddImm (d a : BitVec 3) (k : BitVec 20) (s : State) : Out := s.gbin d (· + ·) a (k.setWidth 32)
/-- R288 GSUB. -/
def execGsub (d a b : BitVec 3) (s : State) : Out := s.gbin d (· - ·) a (s.rg b)
/-- R288 GSUB with an immediate. -/
def execGsubImm (d a : BitVec 3) (k : BitVec 20) (s : State) : Out := s.gbin d (· - ·) a (k.setWidth 32)
/-- R288 GAND. -/
def execGand (d a b : BitVec 3) (s : State) : Out := s.gbin d (· &&& ·) a (s.rg b)
/-- R288 GAND with an immediate. -/
def execGandImm (d a : BitVec 3) (k : BitVec 20) (s : State) : Out := s.gbin d (· &&& ·) a (k.setWidth 32)
/-- R288 GOR. -/
def execGor (d a b : BitVec 3) (s : State) : Out := s.gbin d (· ||| ·) a (s.rg b)
/-- R288 GOR with an immediate. -/
def execGorImm (d a : BitVec 3) (k : BitVec 20) (s : State) : Out := s.gbin d (· ||| ·) a (k.setWidth 32)
/-- R288 GSHL. -/
def execGshl (d a b : BitVec 3) (s : State) : Out := s.gbin d (State.gshift true) a (s.rg b)
/-- R288 GSHL with an immediate. -/
def execGshlImm (d a : BitVec 3) (k : BitVec 20) (s : State) : Out := s.gbin d (State.gshift true) a (k.setWidth 32)
/-- R288 GSHR. -/
def execGshr (d a b : BitVec 3) (s : State) : Out := s.gbin d (State.gshift false) a (s.rg b)
/-- R288 GSHR with an immediate. -/
def execGshrImm (d a : BitVec 3) (k : BitVec 20) (s : State) : Out := s.gbin d (State.gshift false) a (k.setWidth 32)
/-- R288 GMIN. -/
def execGmin (d a b : BitVec 3) (s : State) : Out := s.gbin d State.gmin2 a (s.rg b)
/-- R288 GMIN with an immediate. -/
def execGminImm (d a : BitVec 3) (k : BitVec 20) (s : State) : Out := s.gbin d State.gmin2 a (k.setWidth 32)
/-- R288 GMAX. -/
def execGmax (d a b : BitVec 3) (s : State) : Out := s.gbin d State.gmax2 a (s.rg b)
/-- R288 GMAX with an immediate. -/
def execGmaxImm (d a : BitVec 3) (k : BitVec 20) (s : State) : Out := s.gbin d State.gmax2 a (k.setWidth 32)
/-- R288 GSKIP. -/
def execGskip (c : Cond) (a b : BitVec 3) (n : BitVec 6) (s : State) : Out :=
  .next (s.gstep (if condHolds32 c (s.rg a) (s.rg b) then 1 + n.toNat else 1))
/-- R289 GHIST. -/
def execGhist (a b : BitVec 3) (o : BitVec 12) (s : State) : Out :=
  .next (s.gobj o (fun d x => let k := d.bin (s.rg a); { x with cells := x.cells.put k (satAdd (x.cells.get k 0) (s.rg b)) }))
/-- R289 GSKETCH. -/
def execGsketch (a b : BitVec 3) (o : BitVec 12) (s : State) : Out :=
  .next (s.gobj o (fun _ x => { x with cells := [0, 1, 2, 3].foldl (fun c r => let k := sketchCell r (s.rg a); c.put k (satAdd (c.get k 0) (s.rg b))) x.cells }))
/-- R288 GCOUNT. -/
def execGcount (a : BitVec 3) (o : BitVec 12) (s : State) : Out :=
  .next (s.gobj o (fun _ x => { x with total := x.total + (s.rg a).setWidth 64 }))
/-- R288 GSAMPLE. -/
def execGsample (a b : BitVec 3) (o : BitVec 12) (s : State) : Out :=
  .next (s.gobj o (fun d x =>
    let k := 4 * (x.total.toNat % 2 ^ d.mode)
    { x with cells := (((x.cells.put k (s.rg a)).put (k + 1) (s.rg b)).put (k + 2) (s.evField 1)).put (k + 3) (s.evField 2), total := x.total + 1 }))

/-- R290 GTRIG. -/
def execGtrig (a b : BitVec 3) (o : BitVec 12) (s : State) : Out :=
  .next (
    let r := s.lan.run.getD 0
    let f := s.filters.get r default
    match f.decls[o.toNat]? with
    | none => s.gstep 1
    | some d =>
      let x := f.objs.get o.toNat {}
      if x.armed && (x.fires = 0 || (s.evTime - x.last).toNat ≥ d.param.toNat) then
        let t := s.gobj o (fun _ x => { x with last := s.evTime, fires := x.fires + 1, armed := d.mode % 2 = 0 })
        let ring := if f.tenant = 0 then s.hvRing else s.tenantRing f.tenant
        t.postAt s.evTime.toNat ring 6 0 (toBytes 4 r ++ toBytes 1 o.toNat ++ toBytes 1 f.evtype ++ toBytes 2 0 ++ toBytes 8 (x.fires.toNat + 1)
          ++ [1, 2, 3, 4, 5].flatMap (fun i => toBytes 4 (s.evField i).toNat) ++ toBytes 4 (s.rg a).toNat ++ toBytes 4 (s.rg b).toNat ++ toBytes 4 0)
      else s.gobj o (fun _ x => { x with suppressed := x.suppressed + 1 }))

/-- R288 GEND: the run ends. -/
def execGend (s : State) : Out := .next ((s.gstep 1).endRun s.cur.die)

/-- R293 LMARK. -/
def execLmark (x : LaneOp) (s : State) : Out :=
  .next (match (lanesOf s.cur.act)[0]? with
    | some i => (s.tapBeam s.cur.blk s.cur.beam 0x3C (BitVec.ofNat 32 (x.mb 0 7)) (s.src x .a i) (s.src x .b i) s.cur.act).flow .go
    | none => s.flow .go)

/-- R283 LANTERN_EVENT: an event is produced at its tap; `tick` says that no event arrived in its Lantern cycle before it. -/
def execLanternEvent (die : Nat) (e : LEvent) (tick : Bool) (s : State) : Out :=
  let code := e.code.toNat
  let tid := e.tenant.toNat
  .next (
    if !tick && (s.lantern die).intook then
      if s.filters.any (fun f => f.2.die = die && f.2.takes code tid) then s.setLantern die (fun l => l.drop code tid) else s
    else
      let was := s.lantern die
      let t := s.offer die [BitVec.ofNat 32 code, s.reftime.setWidth 32, (s.reftime >>> 32).setWidth 32, e.ctx, e.tenant, e.place, e.cycles,
        BitVec.ofNat 32 (code % 4), e.f8, e.f9, e.f10, e.f11]
      t.setLantern die (fun l => { l with intook := was.fifo.length < l.fifo.length || (!tick && was.intook) }))

/-- R286, R291 FILTER_RUN: between two runs, the next filter of the head event runs if its tenant's budget allows. -/
def execFilterRun (die : Nat) (s : State) : Out :=
  .next (
    let l := s.lantern die
    if l.run.isSome || !s.windowNow die || s.exportDue die then s
    else
      match l.todo with
      | f :: r =>
        let x := s.filters.get f default
        let s := s.setLantern die (fun l => { l with todo := r })
        if x.tenant ≠ 0 ∧ (s.tenant x.tenant).lbud - l.spent.get x.tenant 0 < x.words.length then
          s.setLantern die (fun l => { l with skips := l.skips.put x.tenant (l.skips.get x.tenant 0 + 1) })
        else s.setLantern die (fun l => { l with run := some f, g := [], wordIx := 0, words := 0 })
      | [] =>
        match l.fifo with
        | [] => s
        | e :: r =>
          let code := ((e[0]?).getD 0).toNat
          let tid := ((e[4]?).getD 0).toNat
          s.setLantern die (fun l => { l with fifo := r, evt := e, todo := (s.filters.filter (fun f => f.2.die = die && f.2.takes code tid)).map (fun f => f.1) }))

/-- R291, R292 LANTERN_WINDOW: a window of 1 ms ends, once the exports of the one before it are written: its charges and skips are kept for the exports it owes, and every
budget is whole again. -/
def execLanternWindow (die : Nat) (s : State) : Out :=
  .next (
    let l := s.lantern die
    if l.run.isSome || s.windowNow die || s.now / 100000 < l.window || s.exportDue die then s
    else
      let s := { s with filters := s.filters.mapV (fun _ f =>
        if f.die ≠ die || l.window ≤ f.since then f
        else
          let n := f.windows + 1
          { f with windows := n, due := f.period ≠ 0 && n % f.period = 0, charge := if f.tenant = 0 then 0 else l.spent.get f.tenant 0, skipped := if f.tenant = 0 then 0 else l.skips.get f.tenant 0 }) }
      s.setLantern die (fun l => { l with window := l.window + 1, spent := [], skips := [] }))

/-- R292 LANTERN_EXPORT: a filter's export area is written, and, once every home has acknowledged its part (R356), the window count. -/
def execLanternExport (die filter : Nat) (s : State) : Out :=
  .next (match s.filters.find filter with
    | some f =>
      if f.die = die && f.due && (s.lantern die).run.isNone then
        let head := toBytes 4 f.charge ++ toBytes 4 f.skipped ++ toBytes 8 (s.dropsOf f - f.dropBase).toNat ++ toBytes 40 0
        let body := (f.decls.mapIdx (fun i d => LObj.bytes d (f.objs.get i {}))).flatten
        let area := State.exportArea filter f.tenant (f.exaddr + 64) (body.length / 64 + 1) body (s.exportPut filter f.tenant (f.exaddr + 8) head)
        if !area.1 then area.2
        else
          let count := area.2.exportPut filter f.tenant f.exaddr (toBytes 8 f.windows)
          if !count.1 then count.2
          else { count.2.forget (.exportOf filter) with filters := s.filters.put filter { f with due := false, objs := if f.clr then [] else f.objs } }
      else s
    | none => s)

/-- R295 LANTERN_SRAM_ERROR: the filter that owns the failed object is detached, and the hypervisor is told. -/
def execLanternSramError (die filter : Nat) (s : State) : Out :=
  .next (match s.filters.find filter with
    | some f => if f.die = die then (s.detachFilter filter).postHv 20 (toBytes 1 die ++ toBytes 3 0 ++ toBytes 4 filter ++ toBytes 8 0) else s
    | none => s)

end Sys2Proof.Machine
end

