-- ==== Sys2Proof/Machine/ScalarAlu.lean ====
section
/-! DEFINITION. The arithmetic of the scalar stream (R86, R87): 64 bits, modulo 2^64, no arithmetic trap. -/

namespace Sys2Proof.Machine

/-- R81, R79: writes `s[d]`, and the stream goes on at the next word. -/
def State.sWriteReg (d : BitVec 5) (x : W64) (s : State) : State := (s.ws d x).advance

/-- R86: a register form. -/
def sOp2 (f : W64 → W64 → W64) (d a b : BitVec 5) (s : State) : Out := .next (s.sWriteReg d (f (s.rs a) (s.rs b)))

/-- R87: an immediate form. -/
def sOp1 (f : W64 → W64) (d a : BitVec 5) (s : State) : Out := .next (s.sWriteReg d (f (s.rs a)))

/-- R43: imm16 sign-extended. -/
def sextI (k : BitVec 16) : W64 := k.signExtend 64

/-- R86 SADD. -/
def execSadd (d a b : BitVec 5) (s : State) : Out := sOp2 (fun x y => x + y) d a b s
/-- R86 SSUB. -/
def execSsub (d a b : BitVec 5) (s : State) : Out := sOp2 (fun x y => x - y) d a b s
/-- R86 SMUL. -/
def execSmul (d a b : BitVec 5) (s : State) : Out := sOp2 (fun x y => x * y) d a b s
/-- R86 SMULH: bits 127 to 64 of the signed product. -/
def execSmulh (d a b : BitVec 5) (s : State) : Out := sOp2 (fun x y => BitVec.ofInt 64 (x.toInt * y.toInt / 2 ^ 64)) d a b s
/-- R86 SMULHU: bits 127 to 64 of the unsigned product. -/
def execSmulhu (d a b : BitVec 5) (s : State) : Out := sOp2 (fun x y => BitVec.ofNat 64 (x.toNat * y.toNat / 2 ^ 64)) d a b s
/-- R86 SAND. -/
def execSand (d a b : BitVec 5) (s : State) : Out := sOp2 (fun x y => x &&& y) d a b s
/-- R86 SOR. -/
def execSor (d a b : BitVec 5) (s : State) : Out := sOp2 (fun x y => x ||| y) d a b s
/-- R86 SXOR. -/
def execSxor (d a b : BitVec 5) (s : State) : Out := sOp2 (fun x y => x ^^^ y) d a b s
/-- R86 SSHL. -/
def execSshl (d a b : BitVec 5) (s : State) : Out := sOp2 (fun x y => x <<< (y.toNat % 64)) d a b s
/-- R86 SSHR. -/
def execSshr (d a b : BitVec 5) (s : State) : Out := sOp2 (fun x y => x >>> (y.toNat % 64)) d a b s
/-- R86 SSRA. -/
def execSsra (d a b : BitVec 5) (s : State) : Out := sOp2 (fun x y => x.sshiftRight (y.toNat % 64)) d a b s
/-- R86 SSLT. -/
def execSslt (d a b : BitVec 5) (s : State) : Out := sOp2 (fun x y => if x.slt y then 1 else 0) d a b s
/-- R86 SSLTU. -/
def execSsltu (d a b : BitVec 5) (s : State) : Out := sOp2 (fun x y => if x.ult y then 1 else 0) d a b s
/-- R86 SMIN: signed. -/
def execSmin (d a b : BitVec 5) (s : State) : Out := sOp2 (fun x y => if x.slt y then x else y) d a b s
/-- R86 SMAX: signed. -/
def execSmax (d a b : BitVec 5) (s : State) : Out := sOp2 (fun x y => if y.slt x then x else y) d a b s
/-- R86 SCLZ. -/
def execSclz (d a : BitVec 5) (s : State) : Out := sOp1 (fun x => BitVec.ofNat 64 (clzN 64 x.toNat)) d a s
/-- R86 SPOPC. -/
def execSpopc (d a : BitVec 5) (s : State) : Out := sOp1 (fun x => BitVec.ofNat 64 (popN 64 x.toNat)) d a s

/-- R87 SADDI. -/
def execSaddi (d a : BitVec 5) (k : BitVec 16) (s : State) : Out := sOp1 (fun x => x + sextI k) d a s
/-- R87 SANDI. -/
def execSandi (d a : BitVec 5) (k : BitVec 16) (s : State) : Out := sOp1 (fun x => x &&& k.setWidth 64) d a s
/-- R87 SORI. -/
def execSori (d a : BitVec 5) (k : BitVec 16) (s : State) : Out := sOp1 (fun x => x ||| k.setWidth 64) d a s
/-- R87 SXORI. -/
def execSxori (d a : BitVec 5) (k : BitVec 16) (s : State) : Out := sOp1 (fun x => x ^^^ k.setWidth 64) d a s
/-- R87 SSHLI. -/
def execSshli (d a : BitVec 5) (k : BitVec 6) (s : State) : Out := sOp1 (fun x => x <<< k.toNat) d a s
/-- R87 SSHRI. -/
def execSshri (d a : BitVec 5) (k : BitVec 6) (s : State) : Out := sOp1 (fun x => x >>> k.toNat) d a s
/-- R87 SSRAI. -/
def execSsrai (d a : BitVec 5) (k : BitVec 6) (s : State) : Out := sOp1 (fun x => x.sshiftRight k.toNat) d a s
/-- R87 SSLTI. -/
def execSslti (d a : BitVec 5) (k : BitVec 16) (s : State) : Out := sOp1 (fun x => if x.slt (sextI k) then 1 else 0) d a s
/-- R87 SSLTIU. -/
def execSsltiu (d a : BitVec 5) (k : BitVec 16) (s : State) : Out := sOp1 (fun x => if x.ult (sextI k) then 1 else 0) d a s
/-- R87 SLUI: sext(k << 16, 32). -/
def execSlui (d : BitVec 5) (k : BitVec 16) (s : State) : Out := .next (s.sWriteReg d ((k.setWidth 32 <<< 16).signExtend 64))

end Sys2Proof.Machine
end

