-- ==== Sys2Proof/Machine/Sync.lean ====
section
/-! DEFINITION. Block barriers (R183), barrier objects (R185) and the grant of claims (R178). -/

namespace Sys2Proof.Machine

/-- R183 BAR: arrives and waits; an arrival is kept while parked. -/
def execBar (k : BitVec 4) (s : State) : Out :=
  .next (s.notInHandler 0x38 (fun s => s.afterRegions (fun s => s.park (.bar k.toNat))))

/-- R183: every beam that has not exited has arrived at barrier `k`, and some has. -/
def State.barFull (s : State) (b k : Nat) : Bool :=
  let live := (s.block b).beams.filter (fun e => !e.2.exited)
  !live.isEmpty && live.all (fun e => e.2.spark == .bar k)

/-- Frees every beam parked at barrier `k`: each goes on at its next word. -/
def State.barRelease (b k : Nat) (s : State) : State :=
  s.setBeams b (fun _ x => if x.spark == .bar k && !x.exited then { x with spark := .none, spc := x.spc + 1 } else x)

/-- R178 CLAIM_GRANT: one scan of the block's parked claims. -/
def execClaimGrant (blk : Nat) (s : State) : Out :=
  .next (if s.onCore blk && (s.block blk).halt.isNone then s.grantClaims blk else s)

/-- R185 BOINIT. -/
def execBoinit (a b : BitVec 5) (k : BitVec 11) (s : State) : Out :=
  let x := s.rs b + k.setWidth 64
  .next (s.withBo 1 false (s.rs a) (fun off s =>
    if 1 ≤ x.toNat ∧ x.toNat ≤ 32767 then (s.acceptBo { blk := s.cur.blk, beam := s.cur.beam, off := off, op := .init x.toNat }).advance
    else s.trapMe (State.boCause 8 (s.boAccepted s.cur.blk off) (s.rs a))))

/-- R185 BOARRIVE. -/
def execBoarrive (a : BitVec 5) (s : State) : Out :=
  .next (s.withBo 2 true (s.rs a) (fun off s =>
    let o := s.boAccepted s.cur.blk off
    if o.pend = 0 then s.trapMe (State.boCause 9 o (s.rs a))
    else (s.acceptBo { blk := s.cur.blk, beam := s.cur.beam, off := off, op := .arrive }).advance))

/-- R185 BOEXPECT. -/
def execBoexpect (a b : BitVec 5) (k : BitVec 11) (s : State) : Out :=
  let y := (s.rs b).toInt + (k.toNat : Int)
  .next (s.withBo 2 true (s.rs a) (fun off s =>
    let o := s.boAccepted s.cur.blk off
    let t := o.bytes + y
    let fits (z : Int) : Bool := -2147483648 ≤ z && z ≤ 2147483647
    if fits y && fits t then (s.acceptBo { blk := s.cur.blk, beam := s.cur.beam, off := off, op := .expect y }).advance
    else s.trapMe (State.boCause 8 o (s.rs a))))

/-- R185 BOWAIT: waits until the phase differs from `ph`. -/
def execBowait (a : BitVec 5) (ph : Bool) (s : State) : Out :=
  .next (s.notInHandler 0x3C (fun s => s.withBo 0 true (s.rs a) (fun off s =>
    if (s.boAt s.cur.blk off).phase != ph then s.advance else (s.park (.bowait off ph)).tapBeam s.cur.blk s.cur.beam 0x16 (BitVec.ofNat 32 off) 0 0 0)))

/-- R185 BOTEST. -/
def execBotest (d a : BitVec 5) (s : State) : Out :=
  .next (s.withBo 0 true (s.rs a) (fun off s => s.sWriteReg d (if (s.boAt s.cur.blk off).phase then 1 else 0)))

/-- R185 BO_UPDATE_PERFORM: the oldest accepted update of the core is performed. -/
def execBoUpdatePerform (core : Nat) (s : State) : Out := .next (s.performBo core)

/-- R184, R185, R187 BOWAIT_WAKE: the phase has differed from the one waited for. -/
def execBowaitWake (blk beam : Nat) (s : State) : Out :=
  .next (
    if s.onCore blk && (s.block blk).halt.isNone && !(s.beamAt blk beam).exited then
      match (s.beamAt blk beam).spark with
      | .bowait off ph =>
        if s.poisonedAt { sp := .scratch blk, addr := off } 16 then
          (((s.postConsumed blk beam 1 off 1 none).endBeam blk beam).forgetBeam blk beam).settle blk
        else if (s.beamAt blk beam).woken || (s.boAt blk off).phase != ph then (s.setBeam blk beam (fun x => { x with spc := x.spc + 1, spark := .none, woken := false })).tapClk9 blk beam 0x17 (BitVec.ofNat 32 off)
        else s
      | _ => s
    else s)

end Sys2Proof.Machine
end

