-- ==== Sys2Proof/Machine/Matrix.lean ====
section
/-! DEFINITION. The matrix quadrant (R200 to R214, R229 to R234): planes, tiles and fusion, the matrix words with their
checks, the two pipes, and the exchange of the accumulator area. -/

namespace Sys2Proof.Machine

/-! ### Formats and layout -/

/-- R201: a tile format by its code. -/
def mFmt (f : Nat) : Fmt := match f with | 0 => .bf16 | 1 => .f16 | 2 => .e4m3 | 3 => .e5m2 | _ => .e2m1
/-- R201: element width in bits. -/
def mWidth (f : Nat) : Nat := if f < 2 then 16 else if f = 4 || f = 6 then 4 else 8
/-- R201: depth. -/
def mDepth (f : Nat) : Nat := 64 / mWidth f
/-- R201: the formats that may meet: each kind has a number. -/
def mKind (f : Nat) : Nat := if f < 2 then 0 else if f < 4 then 1 else f
/-- R201: integer formats. -/
def mInt (f : Nat) : Bool := 5 ≤ f
/-- R201: row pitch of a tile of `k` elements. -/
def mPitch (f k : Nat) : Nat := cdiv (k * mWidth f / 8) 128 * 128
/-- R192, R201: row pitch of a scale tile. -/
def mScalePitch (k : Nat) : Nat := cdiv (2 * cdiv k 16) 16 * 16

/-- R64: the exact value of element `j` of a row with code `code`; `rec` is its block's scale record. -/
def mValue (f code j : Nat) (rec : Option Nat) : FVal :=
  let v := FVal.decode (mFmt f) code
  match rec with
  | none => v
  | some r => if r % 256 = 255 then .nan else FVal.scale ((r % 256 : Nat) - (127 : Int) - (if (r / 256).testBit (j % 16 / 2) then 1 else 0)) v

/-- R73 to R76: one group added to an accumulator word; `ps` pairs the elements of the group, each as (code, index, record). -/
def mStep (fa fb : Nat) (c : W32) (ps : List ((Nat × Nat × Option Nat) × (Nat × Nat × Option Nat))) : W32 :=
  if mInt fa then w32 (satI32 (c.toInt + ps.foldl (fun g p => g + signedOf (mWidth fa) p.1.1 * signedOf (mWidth fb) p.2.1) (0 : Int)))
  else
    let g := FVal.group .rne (ps.map (fun p => FVal.mul (mValue fa p.1.1 p.1.2.1 p.1.2.2) (mValue fb p.2.1 p.2.2.1 p.2.2.2)))
    BitVec.ofNat 32 (FVal.encode .f32 .rne false (FVal.add .rne (FVal.decode .f32 c.toNat) g))

/-- R206: a drained element, by output format (0 f32, 1 bf16, 2 e4m3, 3 e5m2) and kind of tile. -/
def drainCode (ofmt : Nat) (int : Bool) (x : W32) : Nat :=
  if ofmt = 0 then x.toNat
  else
    let f : Fmt := if ofmt = 1 then .bf16 else if ofmt = 2 then .e4m3 else .e5m2
    FVal.encode f .rne false (if int then FVal.ofInt x.toInt 0 false else FVal.decode .f32 x.toNat)
/-- R206: width of a drained element. -/
def drainWidth (ofmt : Nat) : Nat := if ofmt = 0 then 32 else if ofmt = 1 then 16 else 8

/-- R208: does a mask hold the horizontal, the vertical partner of a core. -/
def fuseH (c mask : Nat) : Bool := mask.testBit (c % 4 ^^^ 1)
def fuseV (c mask : Nat) : Bool := mask.testBit (c % 4 ^^^ 2)
/-- R208: the core of a fusion led by `c` that holds a half of the columns and of the groups. -/
def fusePart (c : Nat) (right low : Bool) : Nat := c / 4 * 4 + (c % 4 ^^^ ((if right then 1 else 0) + (if low then 2 else 0)))
/-- R208: the masks that name a fusion or its end. -/
def fuseMask (c mask : Nat) : Bool :=
  let i := c % 4
  mask = 2 ^ i || mask = 2 ^ i + 2 ^ (i ^^^ 1) || mask = 2 ^ i + 2 ^ (i ^^^ 2) || mask = 15

/-- R200: the queue without the completed entries at its head: entries leave in order; an entry held after an abort is
passed by the entries of other blocks (R210). -/
def popQuad (held : QEntry → Bool) : List QEntry → List QEntry
  | [] => []
  | e :: r => if e.done then popQuad held r else if held e then e :: popQuad held r else e :: r

namespace State

/-- R210: is an entry held after an abort of an earlier one of its block: it goes no further, whether it has started or not. -/
def heldQ (s : State) (e : QEntry) : Bool := (match (s.block e.blk).heldQuad with | some h => h < e.id | none => false)

/-- Changes an entry of a quadrant queue, then lets completed entries leave. -/
def setQ (c id : Nat) (f : QEntry → QEntry) (s : State) : State :=
  s.setCore c (fun k => { k with quad := popQuad s.heldQ (k.quad.map (fun e => if e.id = id then f e else e)) })
/-- Removes an entry. -/
def dropQ (c id : Nat) (s : State) : State := s.setCore c (fun k => { k with quad := popQuad s.heldQ (k.quad.filter (fun e => e.id != id)) })

/-- R224, R226: may the quadrant go on with an entry: in a block that a SHUTTER stops, or whose engines are frozen, an MSTR streams no row,
what has started on the other pipe completes, and nothing starts. -/
def quadGoes (s : State) (e : QEntry) : Bool :=
  !(s.frozenBlock e.blk || s.quietBlock e.blk) || (e.started && (e.kind != .mstr || e.size ≤ e.row))

/-- The entry a core's pipes may act on among the entries that satisfy `p`: not held, not stopped, on a core that is not
slaved (R233), with the entries before it that are neither done nor held. -/
def nextQ (s : State) (c : Nat) (p : List QEntry → QEntry → Bool) : Option QEntry :=
  if (s.core c).follow.isSome then none
  else
    let live := (s.core c).quad.filter (fun e => !e.done && !s.heldQ e)
    (live.find? (fun e => s.quadGoes e && p (live.takeWhile (fun x => x.id != e.id)) e))

/-- R208: the fusion that will hold at the turn of a word issued now. -/
def fuseNow (s : State) (c : Nat) : Nat :=
  ((s.core c).quad.filter (fun e => e.kind = .mfuse && !e.done)).foldl (fun _ e => e.mask) (s.core c).lead

/-- R205: the planes that will be active and shadow at the turn of a word issued now, as (format, K). -/
def planesNow (s : State) (c : Nat) : Option (Nat × Nat) × Option (Nat × Nat) :=
  let k := s.core c
  let d (p : Plane) : Option (Nat × Nat) := if p.loaded then some (p.fmt, p.k) else none
  (k.quad.filter (fun e => !e.done)).foldl (fun a e =>
    match e.kind with
    | .mlds => (a.1, some (e.fmt, e.size))
    | .mflip => (a.2, a.1)
    | _ => a) (d k.active, d k.shadow)

/-- The core's number of a block's tile (R211). -/
def tileOf (s : State) (b vn : Nat) : Nat := 4 * (s.block b).accBase + vn
/-- The block whose tiles a fusion led by block `b` shares in its horizontal half (R208). -/
def rightBlock (s : State) (b : Nat) : Nat := (s.groupBlock b (s.coreOf b % 4 ^^^ 1)).getD b

/-! ### The accumulator area -/

/-- The tiles of a block that are live in the area of core `c`. -/
def liveOn (s : State) (c b : Nat) : List Nat := (List.range (4 * (s.block b).accg)).filter (fun v => (s.core c).acclive.contains (s.tileOf b v))

/-- R211: spills the live tiles of one block of the owner to the block's image; the answer is their number. -/
def spillBlock (c b : Nat) (s : State) : Nat × State :=
  let k := s.core c
  let tiles := s.liveOn c b
  (tiles.length, s.setBlock b (fun x => { x with img := { x.img with
    spilled := x.img.spilled ++ tiles.filter (fun v => !x.img.spilled.contains v)
    spill := tiles.foldl (fun t v => (List.range 1024).foldl (fun t i => t.put (1024 * v + i) (k.acc.get (1024 * s.tileOf b v + i) 0)) t) x.img.spill } }))

/-- The blocks of a context that have their tiles in the area of core `c`. -/
def areaBlocks (s : State) (c ctx : Nat) : List Nat := (s.blocks.filter (fun e => e.2.core = c && s.ctxOf e.1 = ctx && !e.2.ended)).map (fun e => e.1)

/-- R211: spills the owner's live tiles to its blocks' images; the answer is the number of tiles. -/
def spillTiles (c : Nat) (s : State) : Nat × State :=
  match (s.core c).accown with
  | none => (0, s)
  | some o => (s.areaBlocks c o).foldl (fun r b => let x := r.2.spillBlock c b; (r.1 + x.1, x.2)) (0, s)

/-- R211: a block's spilled tiles come back into the area of core `c`, which its context owns. -/
def loadTiles (c b : Nat) (s : State) : State :=
  let i := (s.block b).img
  let s := s.setCore c (fun k => { k with
    acclive := k.acclive ++ i.spilled.map (s.tileOf b)
    acc := i.spilled.foldl (fun t v => (List.range 1024).foldl (fun t n => t.put (1024 * s.tileOf b v + n) (i.spill.get (1024 * v + n) 0)) t) k.acc })
  s.setBlock b (fun x => { x with img := { x.img with spilled := [], spill := [] } })

/-- R225: a block leaves the area of a core that its context owns: its live tiles are spilled. -/
def leaveArea (c b : Nat) (s : State) : State :=
  let tiles := (s.liveOn c b).map (s.tileOf b)
  (s.spillBlock c b).2.setCore c (fun k => { k with acclive := k.acclive.filter (fun v => !tiles.contains v), acc := k.acc.filter (fun x => !tiles.contains (x.1 / 1024)), accPoison := k.accPoison.filter (fun w => !tiles.contains (w / 1024)) })

/-- R211, R229: gives the area of a core to a context: its spilled tiles come back, every other tile reads 0. -/
def takeArea (c ctx : Nat) (s : State) : State :=
  let s := s.setCore c (fun k => { k with accown := some ctx, accReq := if k.accReq = some ctx then none else k.accReq, acc := [], accPoison := [], acclive := [] })
  (s.areaBlocks c ctx).foldl (fun s b => s.loadTiles c b) s

/-- R211: the exchange, with its event. -/
def exchange (c ctx : Nat) (s : State) : State :=
  let (n, s) := s.spillTiles c
  (s.takeArea c ctx).tapDev (dieOf c) ctx (s.ctxs.get ctx default).tenant 0x23 0 0 0 (BitVec.ofNat 32 (4096 * n))

/-- R211: do entries of the owner stand in the quadrant queue. -/
def ownerBusy (s : State) (c : Nat) : Bool :=
  match (s.core c).accown with
  | some o => (s.core c).quad.any (fun e => !e.done && s.ctxOf e.blk = o)
  | none => false

/-- R211, R230, R231: may a context make its first use of an area now, where no word waits for it: no entry of the owner stands in the queue, and no
exchange has begun for another context. -/
def areaFree (s : State) (c ctx : Nat) : Bool :=
  (s.core c).accown = some ctx || (!s.ownerBusy c && (match (s.core c).accReq with | some x => x = ctx | none => true))

/-- R229: has a context tiles that an exchange on core `c` would reload. -/
def hasSpilled (s : State) (c ctx : Nat) : Bool := (s.areaBlocks c ctx).any (fun b => !(s.block b).img.spilled.isEmpty)

/-- R229, R230: a context's first use of the area of a core, where no word waits for it. -/
def firstUse (c ctx : Nat) (s : State) : State :=
  match (s.core c).accown with
  | some o => if o = ctx then s else s.exchange c ctx
  | none => if s.hasSpilled c ctx then s.exchange c ctx else s.takeArea c ctx

/-- R211, R229, R231: the first-use check of a matrix word: `k` if the word's context owns the area or takes it now; else the word
waits for the firmware's exchange, behind one that has begun. -/
def owned (k : State → State) (s : State) : State :=
  let c := s.coreOf s.cur.blk
  let ctx := s.ctxOf s.cur.blk
  let ask (s : State) : State := (if (s.core c).accReq.isSome then s else s.setCore c (fun x => { x with accReq := some ctx })).flow .stay
  match (s.core c).accown with
  | some o => if o = ctx then k s else ask s
  | none =>
    if s.hasSpilled c ctx then ask s
    else k (s.setCore c (fun x => { x with accown := some ctx, acclive := [], acc := [], accPoison := [] }))

/-! ### Issue -/

/-- R194, R233: a matrix word: it parks while the core is slaved; then the first-use check; with no active lane it does
nothing more. -/
def matrixWord (k : State → State) (s : State) : State :=
  if (s.core (s.coreOf s.cur.blk)).follow.isSome then s.flow .stay
  else s.owned (fun s => if s.cur.act = 0 then s.flow .go else k s)

/-- Enqueues the entries of a word, if they all fit (R194). -/
def enqueueQ (es : List QEntry) (s : State) : State :=
  let c := s.coreOf s.cur.blk
  if (s.core c).quad.length + es.length > 16 then s.flow .stay
  else
    (es.foldl (fun t e => t.fresh.2.setCore c (fun k => { k with quad := k.quad ++ [{ e with id := t.fresh.1, blk := s.cur.blk, beam := s.cur.beam }] })) s).flow .go

/-- R209: enqueues the entries of the active lanes, or traps on the first failing check. -/
def matrixLanes (fail : Nat → Option Fail) (entry : Nat → QEntry) (s : State) : State :=
  let lanes := lanesOf s.cur.act
  match firstFail (lanes.filterMap (fun i => (fail i).map (fun f => (i, f)))) with
  | some (i, m, code, off) =>
    if code = 8 then
      let f := s.takeFree
      f.2.trapLane { engineCause 8 i 0 true m 0 with d2 := Config.accRangeOffset f.1 }
    else s.trapLane (engineCause code i 0 true m off)
  | none => s.enqueueQ (lanes.map entry)

/-- R207, R208: the range of a tile number; in a horizontal fusion the partner block's too. -/
def accFail (s : State) (step vn : Nat) : Option Fail :=
  let b := s.cur.blk
  let c := s.coreOf b
  let n := if fuseH c (s.fuseNow c) then min (s.myBlock.accg) (s.block (s.rightBlock b)).accg else s.myBlock.accg
  if vn < 4 * n then none else some (step, 8, 0)

/-- R203 MLDS in one lane. -/
def mldsFail (s : State) (f : Nat) (sc : Bool) (vt k vs : Nat) : Option Fail :=
  let c := s.coreOf s.cur.blk
  let m := s.fuseNow c
  let rows := if fuseH c m then 64 else 32
  let top := if fuseV c m then 64 * mDepth f else 32 * mDepth f
  firstOf [alignFail 3 vt 128, if sc then alignFail 3 vs 256 else none,
    s.boundFail 4 vt (rows * mPitch f k), if sc then s.boundFail 4 vs (rows * mScalePitch k) else none,
    if k % mDepth f = 0 ∧ mDepth f ≤ k ∧ k ≤ top ∧ (sc = false ∨ k % 16 = 0) then none else some (7, 5, vt)]

/-- R205 MSTR in one lane. -/
def mstrFail (s : State) (f : Nat) (sc : Bool) (vt m vs vn : Nat) : Option Fail :=
  let plane := (s.planesNow (s.coreOf s.cur.blk)).1
  let k := match plane with | some p => p.2 | none => 0
  firstOf [alignFail 3 vt 128, if sc then alignFail 3 vs 256 else none,
    s.boundFail 4 vt (m * mPitch f k), if sc then s.boundFail 4 vs (m * mScalePitch k) else none,
    s.accFail 6 vn,
    if 1 ≤ m ∧ m ≤ 32 then none else some (7, 5, vt),
    match plane with
    | some p => if mKind p.1 = mKind f then none else some (8, 9, vt)
    | none => some (8, 9, vt)]

/-- R206 MDRAIN in one lane; a row is 256 bytes for 64 columns of f32. -/
def mdrainFail (s : State) (ofmt vn dst bo : Nat) : Option Fail :=
  let c := s.coreOf s.cur.blk
  let rows := 32 * (if ofmt = 0 && fuseH c (s.fuseNow c) then 256 else 128)
  firstOf [alignFail 3 dst 128, alignFail 3 bo 16, s.boundFail 4 dst rows, s.boundFail 4 bo 16, s.word3Fail 5 bo, s.accFail 6 vn]

/-- R208: is an MFUSE mask in order: a fusion of the array, made of cores that hold a block of the group and of the tenant,
none of them in another fusion. -/
def fuseOk (s : State) (mask : W32) : Bool :=
  let b := s.cur.blk
  let c := s.coreOf b
  let own (k : Nat) : Bool := c / 4 * 4 + k = c
  mask.toNat < 16 && fuseMask c mask.toNat
  && (List.range 4).all (fun k => !mask.getLsbD k || own k || (
      (match s.groupBlock b k with | some t => s.tenantOf t = s.tenantOf b | none => false)
      && (s.core (c / 4 * 4 + k)).lead = 0
      && (match (s.core (c / 4 * 4 + k)).follow with | some l => l = c | none => true)))

/-! ### The pipes -/

/-- The codes of a tile row in scratch; none where it holds poison. -/
def tileRow (s : State) (b off n bits : Nat) : Option (List Nat) :=
  let l : Loc := { sp := .scratch b, addr := off }
  if s.poisonedAt l (cdiv (n * bits) 8) then none else some (unpackCodes bits n (ofBytes (s.peek l (cdiv (n * bits) 8))))

/-- R203: the rows of a stationary tile, as codes and scale records, or the first row that holds poison. -/
def loadRows (s : State) (e : QEntry) : Nat → Nat → List (List Nat × List Nat) → Except Nat (List (List Nat × List Nat))
  | 0, _, acc => .ok acc
  | k + 1, n, acc =>
    match s.tileRow e.blk (e.off + n * mPitch e.fmt e.size) e.size (mWidth e.fmt),
      (if e.sc then s.tileRow e.blk (e.soff + n * mScalePitch e.size) (cdiv e.size 16) 16 else some []) with
    | some xs, some rs => loadRows s e k (n + 1) (acc ++ [(xs, rs)])
    | _, _ => .error n

/-- R203: the part of a loaded tile that one core's shadow plane holds: columns from `n0`, elements from `k0`. -/
def planePart (e : QEntry) (rows : List (List Nat × List Nat)) (n0 k0 : Nat) : Plane :=
  let width := 32 * mDepth e.fmt
  let part := (rows.drop n0).take 32
  let piece (l : List Nat) (a n : Nat) : List Nat := (l.drop a).take n
  { loaded := true, fmt := e.fmt, k := e.size - k0, scaled := e.sc,
    el := (part.mapIdx (fun n r => (piece r.1 k0 width).mapIdx (fun k v => (2048 * n + k, BitVec.ofNat 16 v)))).flatten,
    sc := (part.mapIdx (fun n r => (piece r.2 (k0 / 16) (cdiv width 16)).mapIdx (fun g v => (256 * n + g, BitVec.ofNat 16 v)))).flatten }

/-- R203, R208: the cores of a fusion with the columns and the elements of a tile that each holds. -/
def planeParts (c mask d size : Nat) : List (Nat × Nat × Nat) :=
  [(false, false), (true, false), (false, true), (true, true)].filterMap (fun p =>
    if (p.1 && !fuseH c mask) || (p.2 && (!fuseV c mask || size ≤ 32 * d)) then none
    else some (fusePart c p.1 p.2, if p.1 then 32 else 0, if p.2 then 32 * d else 0))

/-- R200, R205: element `k` of column `n` of the active plane of a fusion led by `c`, as (code, index, record): none where
the core that should hold it holds no such plane. -/
def planeElem (s : State) (c : Nat) (p : Plane) (mask n k : Nat) : Option (Nat × Nat × Option Nat) :=
  let width := 32 * mDepth p.fmt
  let right := 32 ≤ n
  let low := width ≤ k
  if (right && !fuseH c mask) || (low && !fuseV c mask) then none
  else
    let q := (s.core (fusePart c right low)).active
    let k' := k % width
    if q.loaded && q.fmt = p.fmt && q.scaled = p.scaled && ((if low then q.k + width else q.k) = p.k) then
      some ((q.el.get (2048 * (n % 32) + k') 0).toNat, k', if p.scaled then some (q.sc.get (256 * (n % 32) + k' / 16) 0).toNat else none)
    else none

/-- R205: the word that one output becomes, from the codes and records of its A row. -/
def mstrWord (s : State) (c : Nat) (p : Plane) (e : QEntry) (xs rs : List Nat) (n : Nat) (old : W32) : W32 :=
  let d := mDepth e.fmt
  let mask := (s.core c).lead
  let cols := (List.range (p.k / d)).map (fun g => (List.range d).map (fun j => s.planeElem c p mask n (g * d + j)))
  if cols.any (fun g => g.any (·.isNone)) then Config.planeWord (s.free + n)
  else
    cols.zipIdx.foldl (fun acc g =>
      mStep e.fmt p.fmt acc (g.1.zipIdx.filterMap (fun y => y.1.map (fun b =>
        let k := g.2 * d + y.2
        (((xs[k]?).getD 0, k, if e.sc then some ((rs[k / 16]?).getD 0) else none), b)))))
      (if e.acc then old else if mInt e.fmt then 0 else 0x80000000)

/-- R205, R208: streams row `e.row` of an MSTR; the answer is none where a source holds poison (R210). -/
def streamRow (c : Nat) (e : QEntry) (s : State) : Option State :=
  let p := (s.core c).active
  let mask := (s.core c).lead
  let cols := if fuseH c mask then 64 else 32
  let right := fusePart c true false
  let holder (n : Nat) : Nat := if n < 32 then c else right
  let word (n : Nat) : Nat := 1024 * (if n < 32 then s.tileOf e.blk e.tile else s.tileOf (s.rightBlock e.blk) e.tile) + 32 * e.row + n % 32
  let spoiled := (planeParts c mask (mDepth p.fmt) p.k).any (fun x => (s.core x.1).active.poisoned)
    || (e.acc && (List.range cols).any (fun n => (s.core (holder n)).accPoison.contains (word n)))
  if spoiled then none
  else
    match s.tileRow e.blk (e.off + e.row * mPitch e.fmt p.k) p.k (mWidth e.fmt),
      (if e.sc then s.tileRow e.blk (e.soff + e.row * mScalePitch p.k) (cdiv p.k 16) 16 else some []) with
    | some xs, some rs =>
      let s' := (List.range cols).foldl (fun t n =>
        t.setCore (holder n) (fun k => { k with acc := k.acc.put (word n) (s.mstrWord c p e xs rs n ((s.core (holder n)).acc.get (word n) 0)), accPoison := k.accPoison.filter (· != word n) })) s
      some { s' with free := s'.free + 64 }
    | _, _ => none

/-- R211: makes a tile live, with the partner's under a horizontal fusion (R208, R233). -/
def makeLive (c b vn : Nat) (s : State) : State :=
  let add (c t : Nat) (s : State) : State := s.setCore c (fun k => { k with acclive := if k.acclive.contains t then k.acclive else k.acclive ++ [t] })
  let s := add c (s.tileOf b vn) s
  if fuseH c (s.core c).lead then add (fusePart c true false) (s.tileOf (s.rightBlock b) vn) s else s

/-- R218: the detail of HWERR.MATRIX (log entry 53, DEDUCED). -/
def matrixCause (kind row tile d1 : Nat) : Cause :=
  { grp := 8, code := 2, d0 := kind + 8 * (row % 32) + 256 * (tile % 256), d1 := BitVec.ofNat 32 d1, async := true }

/-- R210, R161: an entry aborts on an error it consumed: its block's later entries are held, and the block traps. -/
def abortQ (c : Nat) (e : QEntry) (kind row tile off : Nat) (s : State) : State :=
  let s := (s.dropQ c e.id).setBlock e.blk (fun k => { k with heldQuad := some (min (k.heldQuad.getD e.id) e.id) })
  (s.postConsumed e.blk e.beam 3 off 0 none).asyncTrap e.blk e.beam (matrixCause kind row tile 0)

/-- An event of the quadrant family (R284). -/
def tapQuad (e : QEntry) (variant rows : Nat) (s : State) : State :=
  let f := s.takeFree
  f.2.tapBeam e.blk e.beam (0x20 + variant) (BitVec.ofNat 32 e.tile) (BitVec.ofNat 32 rows) (Config.tapClk f.1) 0

/-- R206: writes the drained tile, row by row; else the first row of which an accumulator word holds poison, and then no row is written (R210; log entry
53, DEDUCED). -/
def drainTile (c : Nat) (e : QEntry) (s : State) : Except Nat State :=
  let cols := if fuseH c (s.core c).lead then 64 else 32
  let right := fusePart c true false
  let holder (n : Nat) : Nat := if n < 32 then c else right
  let word (m n : Nat) : Nat := 1024 * (if n < 32 then s.tileOf e.blk e.tile else s.tileOf (s.rightBlock e.blk) e.tile) + 32 * m + n % 32
  match (List.range 32).find? (fun m => (List.range cols).any (fun n => (s.core (holder n)).accPoison.contains (word m n))) with
  | some m => .error m
  | none =>
    let w := drainWidth e.fmt
    let pitch := if cols = 64 && e.fmt = 0 then 256 else 128
    .ok ((List.range 32).foldl (fun t m =>
      t.poke { sp := .scratch e.blk, addr := e.off + m * pitch }
        (packBytes w (cols * w / 8) ((List.range cols).map (fun n => drainCode e.fmt e.int ((s.core (holder n)).acc.get (word m n) 0))))) s)

/-- R206: `.rel` clears the tile's live bit once the drain's reads are done. -/
def releaseTile (c : Nat) (e : QEntry) (s : State) : State :=
  if e.rel then
    let s := s.setCore c (fun k => { k with acclive := k.acclive.filter (· != s.tileOf e.blk e.tile) })
    if fuseH c (s.core c).lead then s.setCore (fusePart c true false) (fun k => { k with acclive := k.acclive.filter (· != s.tileOf (s.rightBlock e.blk) e.tile) }) else s
  else s

/-- R200: an entry whose pipe has no more to do for the next: an MSTR that has streamed its last row, a written drain. -/
def streamed (e : QEntry) : Bool := match e.kind with | .mstr => e.started && e.size ≤ e.row | .mdrain => e.row = 32 | _ => e.done

/-- R200, R214: may an entry start, behind the entries before it. -/
def startsNow (before : List QEntry) (e : QEntry) : Bool :=
  !e.started && before.all (fun x => x.kind != .mflip && x.kind != .mfuse) &&
  match e.kind with
  | .mlds => before.all (fun x => x.kind != .mlds)
  | .mstr => before.all (fun x => x.kind = .mlds || streamed x)
  | .mzero | .mdrain => before.all (fun x => x.kind = .mlds || (x.kind = .mdrain && streamed x))
  | _ => false

/-- R208: ends the fusion that a core leads. -/
def endFusion (c : Nat) (s : State) : State :=
  let s := { s with cores := s.cores.mapV (fun _ k => if k.follow = some c then { k with follow := none } else k) }
  s.setCore c (fun k => { k with lead := 0 })

/-- R208, R233: the cores of a mask other than the leader. -/
def followers (c mask : Nat) : List Nat := (List.range 4).filterMap (fun k => if mask.testBit k && c / 4 * 4 + k != c then some (c / 4 * 4 + k) else none)

/-- R234: is a block held by a fusion that another block of its group leads. -/
def slaved (s : State) (b : Nat) : Bool :=
  match (s.core (s.coreOf b)).follow with
  | some l => (s.core l).leadBlk != b && (s.block (s.core l).leadBlk).task = (s.block b).task
  | none => false

/-- R234: does a block lead a fusion of which an entry has not completed. Those that a follower's block has enqueued cannot run while the
fusion holds, and are later ones. -/
def leadBusy (s : State) (b : Nat) : Bool :=
  let c := s.coreOf b
  (s.core c).lead != 0 && (s.core c).leadBlk = b && (s.core c).quad.any (fun e => !e.done)

/-- R208, R233: a fusion begins: each follower's area goes to the leader's context first. -/
def beginFusion (c b mask : Nat) (s : State) : State :=
  let s := s.endFusion c
  if mask = 2 ^ (c % 4) then s
  else
    let ctx := s.ctxOf b
    let s := (followers c mask).foldl (fun s f =>
      (s.firstUse f ctx).setCore f (fun k => { k with follow := some c })) s
    s.setCore c (fun k => { k with lead := mask, leadBlk := b })

/-- R203: a started load has filled the shadow plane; one that met poison leaves it empty (R210). -/
def mldsDone (c : Nat) (e : QEntry) (s : State) : State :=
  let mask := (s.core c).lead
  let parts := planeParts c mask (mDepth e.fmt) e.size
  match s.loadRows e (if fuseH c mask then 64 else 32) 0 [] with
  | .ok rows =>
    let t := parts.foldl (fun t p => t.setCore p.1 (fun k => { k with shadow := planePart e rows p.2.1 p.2.2 })) s
    (t.setQ c e.id (fun x => { x with done := true })).tapQuad e 0 rows.length
  | .error n => (parts.foldl (fun t p => t.setCore p.1 (fun k => { k with shadow := {} })) s).abortQ c e 0 n 0 e.off

/-- R207: every word of the tile is 0, and the tile is live; so too in the horizontal partner (R233). -/
def mzeroDone (c : Nat) (e : QEntry) (s : State) : State :=
  let zero (c t : Nat) (s : State) : State :=
    s.setCore c (fun k => { k with acc := k.acc.filter (fun x => x.1 / 1024 != t), accPoison := k.accPoison.filter (fun w => w / 1024 != t) })
  let s := zero c (s.tileOf e.blk e.tile) s
  let s := if fuseH c (s.core c).lead then zero (fusePart c true false) (s.tileOf (s.rightBlock e.blk) e.tile) s else s
  (s.makeLive c e.blk e.tile).setQ c e.id (fun x => { x with done := true })

/-- R206: a drain that has written its tile completes at its barrier object. -/
def drainDone (c : Nat) (e : QEntry) (s : State) : State :=
  let n := 32 * (if fuseH c (s.core c).lead then 64 else 32) * drainWidth e.fmt / 8
  ((s.setQ c e.id (fun x => { x with done := true })).completeAt e.blk e.beam e.bo n 3 (matrixCause 2 0 e.tile (1 + e.bo / 16 * 65536))).tapQuad e 2 32

end State

/-! ### The words -/

/-- R203 MLDS. -/
def execMlds (x : LaneOp) (s : State) : Out :=
  .next (s.matrixWord (fun s =>
    let f := x.mb 0 3
    let sc := x.mb 3 1 == 1
    let v (g : Field) (i : Nat) : Nat := (s.src x g i).toNat
    s.matrixLanes (fun i => s.mldsFail f sc (v .d i) (v .a i) (v .b i))
      (fun i => { kind := .mlds, lane := i, fmt := f, sc := sc, size := v .a i, off := v .d i, soff := v .b i })))
/-- R204 MFLIP: one entry for the word. -/
def execMflip (_x : LaneOp) (s : State) : Out :=
  .next (s.matrixWord (fun s => s.enqueueQ [{ kind := .mflip, lane := (lanesOf s.cur.act)[0]?.getD 0 }]))
/-- R205 MSTR. -/
def execMstr (x : LaneOp) (s : State) : Out :=
  .next (s.matrixWord (fun s =>
    let f := x.mb 0 3
    let sc := x.mb 3 1 == 1
    let v (g : Field) (i : Nat) : Nat := (s.src x g i).toNat
    s.matrixLanes (fun i => s.mstrFail f sc (v .d i) (v .a i) (v .b i) (v .c i))
      (fun i => { kind := .mstr, lane := i, fmt := f, sc := sc, acc := x.mb 4 1 == 1, size := v .a i, off := v .d i, soff := v .b i, tile := v .c i })))
/-- R206 MDRAIN. -/
def execMdrain (x : LaneOp) (s : State) : Out :=
  .next (s.matrixWord (fun s =>
    let f := x.mb 0 2
    let v (g : Field) (i : Nat) : Nat := (s.src x g i).toNat
    s.matrixLanes (fun i => s.mdrainFail f (v .d i) (v .a i) (v .b i))
      (fun i => { kind := .mdrain, lane := i, fmt := f, int := x.mb 2 1 == 1, rel := x.mb 3 1 == 1, off := v .a i, bo := v .b i, tile := v .d i })))
/-- R207 MZERO. -/
def execMzero (x : LaneOp) (s : State) : Out :=
  .next (s.matrixWord (fun s =>
    s.matrixLanes (fun i => s.accFail 6 (s.src x .d i).toNat)
      (fun i => { kind := .mzero, lane := i, tile := (s.src x .d i).toNat })))
/-- R208 MFUSE. -/
def execMfuse (x : LaneOp) (s : State) : Out :=
  .next (s.matrixWord (fun s =>
    let lanes := lanesOf s.cur.act
    match lanes.find? (fun i => !s.fuseOk (s.src x .d i)) with
    | some i => s.trapLane { grp := 3, code := 8, d1 := s.src x .d i }
    | none => s.enqueueQ (lanes.map (fun i => { kind := .mfuse, lane := i, mask := (s.src x .d i).toNat }))))
/-- R207 MWAIT: the unit waits for every entry that its beam enqueued before. -/
def execMwait (_x : LaneOp) (s : State) : Out :=
  .next (s.matrixWord (fun s =>
    if (s.core (s.coreOf s.cur.blk)).quad.any (fun e => !e.done && e.blk = s.cur.blk && e.beam = s.cur.beam) then
      (s.setMe (fun x => match x.unit s.cur.unit with
        | some y => x.setUnit s.cur.unit (some { y with mwait := some s.ids })
        | none => x)).flow .stay
    else s.flow .go))

/-! ### The events -/

/-- R214 QUADRANT_ENTRY_START: an eligible entry starts on its pipe: an MSTR on an empty plane aborts (R210), a drain writes
its tile; with none eligible, the MSTR on the stream pipe streams its next row (R205). -/
def execQuadrantEntryStart (core : Nat) (s : State) : Out :=
  .next (match s.nextQ core State.startsNow with
    | some e =>
      if e.kind = .mstr && !(s.core core).active.loaded then
        ((s.dropQ core e.id).asyncTrap e.blk e.beam (State.matrixCause 1 0 e.tile 2))
      else if e.kind = .mdrain then
        match s.drainTile core e with
        | .ok t => (t.releaseTile core e).setQ core e.id (fun x => { x with started := true, row := 32 })
        | .error m => s.abortQ core e 2 m e.tile e.off
      else s.setQ core e.id (fun x => { x with started := true })
    | none =>
      match s.nextQ core (fun _ e => e.kind = .mstr && e.started && e.row < e.size) with
      | some e =>
        (match s.streamRow core e with
          | some t => (t.makeLive core e.blk e.tile).setQ core e.id (fun x => { x with row := e.row + 1 })
          | none => s.abortQ core e 1 e.row e.tile e.off)
      | none => s)

/-- R203 MLDS_COMPLETE: the started load has filled the shadow plane; one that met poison leaves it empty (R210). -/
def execMldsComplete (core : Nat) (s : State) : Out :=
  .next (match s.nextQ core (fun _ e => e.kind = .mlds && e.started) with
    | some e => s.mldsDone core e
    | none => s)

/-- R204 MFLIP_EFFECT: the planes change places once earlier loads are complete and earlier MSTRs have streamed. -/
def execMflipEffect (core : Nat) (s : State) : Out :=
  .next (match s.nextQ core (fun before e => e.kind = .mflip && before.all (fun x => x.kind != .mlds && x.kind != .mflip && x.kind != .mfuse && (x.kind != .mstr || State.streamed x))) with
    | some e =>
      let t := (core :: State.followers core (s.core core).lead).foldl (fun t c => t.setCore c (fun k => { k with active := k.shadow, shadow := k.active })) s
      t.setQ core e.id (fun x => { x with started := true, done := true })
    | none => s)

/-- R205 MSTR_COMPLETE: the MSTR has streamed its last row into its tile. -/
def execMstrComplete (core : Nat) (s : State) : Out :=
  .next (match s.nextQ core (fun _ e => e.kind = .mstr && State.streamed e) with
    | some e => (s.setQ core e.id (fun x => { x with done := true })).tapQuad e 1 e.size
    | none => s)

/-- R207 MZERO_COMPLETE: every word of the tile is 0, and the tile is live. -/
def execMzeroComplete (core : Nat) (s : State) : Out :=
  .next (match s.nextQ core (fun _ e => e.kind = .mzero && e.started) with
    | some e => s.mzeroDone core e
    | none => s)

/-- R208 MFUSE_EFFECT: every earlier entry has completed, in the leader's queue by its place and in the followers' by their time of
enqueue, and the followers' areas can be given over. -/
def execMfuseEffect (core : Nat) (s : State) : Out :=
  .next (match s.nextQ core (fun before e => e.kind = .mfuse && before.isEmpty) with
    | some e =>
      let fs := State.followers core e.mask
      let ready := fs.all (fun c => (s.core c).quad.all (fun x => x.done || e.id ≤ x.id) && (s.core c).lead = 0 && (match (s.core c).follow with | some l => l = core | none => true)
          && s.areaFree c (s.ctxOf e.blk))
      if ready then (s.beginFusion core e.blk e.mask).setQ core e.id (fun x => { x with started := true, done := true }) else s
    | none => s)

/-- R207 MWAIT_WAKE: a unit whose awaited entries have completed goes on at its next word. -/
def execMwaitWake (blk beam : Nat) (s : State) : Out :=
  .next (
    if s.onCore blk && (s.block blk).halt.isNone then
      s.setBeam blk beam (fun x => x.unitIds.foldl (fun x u =>
        match x.unit u with
        | some y =>
          (match y.mwait with
            | some n => if (s.core (s.coreOf blk)).quad.any (fun e => !e.done && e.blk = blk && e.beam = beam && e.id < n) then x
                else x.setUnit u (some { y with mwait := none, pc := y.pc + 1 })
            | none => x)
        | none => x) x)
    else s)

/-- R211 ACC_EXCHANGE: the firmware gives the area to the context whose first use waits for it. -/
def execAccExchange (core ctx : Nat) (s : State) : Out :=
  .next (if (s.core core).accReq = some ctx && !s.ownerBusy core then s.exchange core ctx else s)

/-- R197 ENTRY_COMPLETION: the first entry of a stream-engine queue that has moved its rows leaves it and completes; for
`q` = 4, a drain that has written its tile, behind no other entry of the quadrant. -/
def execEntryCompletion (core q : Nat) (s : State) : Out :=
  .next (
    if q < 4 then
      match ((s.core core).se.get q []).find? (fun e => e.done) with
      | some e =>
        ((s.dropEntry core q e.id).completeAt e.blk e.beam e.bo (e.shape.rows (e.kind == .gather) * e.shape.rowCount) 2 (State.afterCause 8 1 q e)).tapEngine e q 1
      | none => s
    else
      match s.nextQ core (fun before e => e.kind = .mdrain && e.row = 32 && before.isEmpty) with
      | some e => s.drainDone core e
      | none => s)

end Sys2Proof.Machine
end

