-- ==== Sys2Proof/Machine/ScalarMem.lean ====
section
/-! DEFINITION. The scalar stream's loads, stores, atomics and fences (R156, R157, R155), and watched waiting
(R163 to R169). An access that orders others finds the stores that it orders performed at its fetch, so an ordering has nothing to wait for (log entry 20,
DESIGN CHOICE). -/

namespace Sys2Proof.Machine

/-- R156: the address of an SM form. -/
def State.sAddr (s : State) (a : BitVec 5) (off : BitVec 14) : W64 := s.rs a + off.signExtend 64

/-- A scalar load: `s[d]` takes the bytes read, zero-extended. -/
def sLoad (d : BitVec 5) (a : W64) (w : Width) (s : State) : Out :=
  .next ((s.sRead a w.bytes).finish s (fun bs t => (t.ws d (BitVec.ofNat 64 (ofBytes bs))).sDone))

/-- A scalar store of the low bytes of a register. -/
def sStore (a : W64) (w : Width) (x : W64) (s : State) : Out :=
  .next ((s.sWrite a w.bytes x.toNat).finish s (fun _ t => t.sDone))

/-- R157: a scalar read-modify-write: `s[d]` takes the old value. -/
def sRmw (op : Nat) (d : BitVec 5) (a : W64) (w : Width) (aop : Nat) (operand : List Byte) (put : Nat → Nat) (s : State) : Out :=
  .next (s.notMirrored op (!s.ownScratch s.cur.blk a) (fun s =>
    (s.sWriteAs 1 2 3 aop operand a w.bytes (fun old => toBytes w.bytes (put (ofBytes old)))).finish s
      (fun bs t => (t.ws d (BitVec.ofNat 64 (ofBytes bs))).sDone)))

/-- R156 SLD. -/
def execSld (d a : BitVec 5) (w : Width) (off : BitVec 14) (s : State) : Out := sLoad d (s.sAddr a off) w s
/-- R156 SST: the data is `s[d]`. -/
def execSst (d a : BitVec 5) (w : Width) (off : BitVec 14) (s : State) : Out := sStore (s.sAddr a off) w (s.rs d) s
/-- R157 SAMO. -/
def execSamo (d a b : BitVec 5) (op : Aop) (w : Width) (_o : Ord) (_sc : Scope) (s : State) : Out :=
  sRmw 0x12 d (s.rs a) w op.code (toBytes w.bytes (s.rs b).toNat) (fun old => aopApply op (nbits w) old (s.rs b).toNat) s
/-- R157 SAMO LOAD: an atomic load. -/
def execSamoLoad (d a : BitVec 5) (w : Width) (_o : Ord) (_sc : Scope) (s : State) : Out := sLoad d (s.rs a) w s
/-- R157 SAMO STORE: an atomic store, which R240 masks outside the block's scratch. -/
def execSamoStore (a b : BitVec 5) (w : Width) (_o : Ord) (_sc : Scope) (s : State) : Out :=
  if s.myBlock.mirror.isSome && !s.ownScratch s.cur.blk (s.rs a) then .next (s.trapMe (State.illegal 2 3 0 0x12))
  else sStore (s.rs a) w (s.rs b) s
/-- R157 SCAS: the expected value is the low bits of `s[d]`; a failed comparison writes back what it read. -/
def execScas (d a b : BitVec 5) (w : Width) (_o : Ord) (_sc : Scope) (s : State) : Out :=
  let e := (s.rs d).toNat % 2 ^ nbits w
  sRmw 0x13 d (s.rs a) w 9 (toBytes w.bytes e ++ toBytes w.bytes (s.rs b).toNat) (fun old => if old = e then (s.rs b).toNat else old) s

/-- R28, R155 SFENCE; R240 masks kinds rel, ar and sc at cluster scope or wider. -/
def execSfence (k : FenceKind) (sc : Scope) (s : State) : Out :=
  .next (s.notMirrored 0x2C (k != .acq && 3 ≤ sc.code) (fun s => s.advance))

namespace State

/-- R163: entries of a core's watch table in use. -/
def watchUse (s : State) (c : Nat) : Nat :=
  s.blocks.foldl (fun n e => if e.2.core = c && e.2.resident && !e.2.ended then n + (e.2.beams.map (fun x => x.2.watch.countP (fun w => !w.ovf))).sum else n) 0

/-- R164, R357: has the HIT of a line that the issuing beam registers remotely come before the WATCH is done. -/
def earlyHit (s : State) (l : Loc) : Bool :=
  match l.sp with
  | .remote _ => s.fab.reqs.any (fun e => e.2.who == .watch s.cur.blk s.cur.beam && e.2.msg.addr.toNat == l.addr && e.2.hit)
  | _ => false

/-- R357: the tag of the WATCH that the issuing beam has sent for a line. -/
def watchTag (s : State) (l : Loc) : Nat :=
  match s.fab.reqs.first (fun _ r => r.who == .watch s.cur.blk s.cur.beam && r.msg.op = 6 && l = { sp := .remote r.msg.dst.toNat, addr := r.msg.addr.toNat }) with
  | some e => e.2.msg.tag.toNat
  | none => 0

/-- R163, R168: adds a line to the issuing beam's set, overflowed where the table or the home (`full`) is full. -/
def addWatch (l : Loc) (va : W64) (full : Bool) (snap : List Byte) (s : State) : State :=
  let ovf := full || s.watchUse (s.coreOf s.cur.blk) ≥ 64
  let h := s.earlyHit l
  (s.setMe (fun b => { b with watch := b.watch ++ [{ loc := l, va := va, ovf := ovf, snap := if ovf then snap else [], hit := h && !ovf, signalled := h && ovf, unreg := full, tag := s.watchTag l }] })).tapBeam s.cur.blk s.cur.beam 0x18 0 (va.setWidth 32) 0 0

/-- R163, R357: the acquire read of a watched line, and its registration where it is new. -/
def watchLine (l : Loc) (va : W64) (known : Bool) (s : State) : Got Unit :=
  match l.sp with
  | .remote node =>
    match s.remote (.watch s.cur.blk s.cur.beam) (if known then 1 else 6) 0 node l.addr 64 [] va.toNat with
    | .wait t => .wait (.remote 0) t
    | .ok bs poison => if poison then s.consumeKill va.toNat l else .done () (if known then s else s.addWatch l va false bs)
    | .err 2 =>
      match s.remote (.watch s.cur.blk s.cur.beam) 1 0 node l.addr 64 [] va.toNat with
      | .wait t => .wait (.remote 0) t
      | .ok bs poison => if poison then s.consumeKill va.toNat l else .done () (s.addWatch l va true bs)
      | .err _ => .trap (memCause 8 0 3 true 1 va)
    | .err _ => .trap (memCause 8 0 3 true 1 va)
  | _ =>
    if s.poisonedAt l 64 then s.consumeKill va.toNat l
    else .done () (if known then s else s.addWatch l va false (s.peek l 64))

/-- R218: the WATCH_FULL detail. -/
def watchFull (a : W64) : Cause := { grp := 5, code := 10, d1 := (a &&& ~~~63).setWidth 32, d2 := (a >>> 32).setWidth 32 }

/-- R163: checked as a read of one byte, then the line joins the set; the checks and a page fault come before SYNC.WATCH_FULL (log entry 82, DESIGN CHOICE). A WATCH that has been sent goes where it went (R271). -/
def watchAt (a : W64) (s : State) : Got Unit :=
  let b := s.cur.blk
  let who : ReqWho := .watch b s.cur.beam
  match s.asked who 6 (a &&& ~~~63).toNat 64, s.asked who 1 (a &&& ~~~63).toNat 64 with
  | some (l, _), _ => s.watchLine l (a &&& ~~~63) false
  | none, some (l, _) => s.watchLine l (a &&& ~~~63) true
  | none, none =>
  match s.accessCause b s.cur.beam [(0, a)] 1 3 true with
  | some c => .trap c
  | none =>
    match s.locate b s.cur.beam 0 a false with
    | .trap c => .trap (memCause c 0 3 true 1 a)
    | .fault page mp gpa => s.scalarFault a.toNat page mp gpa 1
    | .ok l _ =>
      let known := s.me.watch.any (fun e => e.loc = l.line)
      if !known && s.me.watch.length ≥ 4 then .trap (watchFull a)
      else (s.performAt b s.cur.beam none l.line 64).watchLine l.line (a &&& ~~~63) known

/-- R165: the index of the lowest entry with a hit. -/
def hitIndex (es : List WatchE) : Option Nat := es.findIdx? (·.hit)

/-- Releases a beam's watch set (R165, R357). -/
def releaseWatch (b j : Nat) (s : State) : State :=
  let es := (s.beamAt b j).watch
  (s.setBeam b j (fun x => { x with watch := [] })).unwatch es

/-- R165: a WAITW with destination `d` ends with a status; the set is released and the stream goes on. -/
def endWait (b j : Nat) (d : BitVec 5) (status : W64) (s : State) : State :=
  (s.setBeam b j (fun x => { x with s := if d = 0 then x.s else x.s.put d.toNat status, spc := x.spc + 1, spark := .none, hitFor := 0 })).releaseWatch b j

/-- The destination of the WAITW at which a beam is parked. -/
def waitDst (s : State) (b j : Nat) : BitVec 5 :=
  match (s.codeOf b).scode[(s.beamAt b j).spc.toNat]? with
  | some w => (match decodeScalar w.toNat with | .ok (.waitw d _ _) => d | _ => 0)
  | none => 0

/-- Ref ticks that the watchdog has counted in a WAITW, as the watch taps show them. -/
def parkedFor (s : State) (b j : Nat) : W32 := match (s.beamAt b j).spark with | .waitw _ _ _ n => BitVec.ofNat 32 n | _ => 0

/-- R165: woken: status 0 with the lowest hit entry, or 0 if none. -/
def wakeWait (b j : Nat) (s : State) : State :=
  let k := (hitIndex (s.beamAt b j).watch).getD 0
  (s.endWait b j (s.waitDst b j) (BitVec.ofNat 64 (4 * k))).tapBeam b j 0x1A (s.parkedFor b j) ((s.beamAt b j).watchVa k) (BitVec.ofNat 32 (4 * k)) 0

/-- R165, R218: the deadline has passed: status 1, and the other form traps SYNC.WAIT_TIMEOUT after the WAITW. In a block that
halts already, that one has no effect: it is evaluated again when the block goes on (R217). A set that holds a hit wakes. -/
def timeoutWait (b j : Nat) (nt : Bool) (t : Nat) (s : State) : State :=
  if (hitIndex (s.beamAt b j).watch).isSome then s.wakeWait b j
  else if !nt && (s.block b).halt.isSome then s
  else
  let va : W64 := match (s.beamAt b j).watch with | e :: _ => e.va | [] => (0 : W64)
  let u := (s.endWait b j (s.waitDst b j) 1).tapBeam b j 0x1B (s.parkedFor b j) (va.setWidth 32) 1 0
  if nt then u
  else u.takeTrap b j { grp := 5, code := 11, d0 := t % 65536, d1 := va.setWidth 32, d2 := (va >>> 32).setWidth 32 } none

end State

/-- R163 WATCH. -/
def execWatch (a : BitVec 5) (s : State) : Out :=
  .next (s.notInHandler 0x3E (fun s => (s.watchAt (s.rs a)).finish s (fun _ t => (t.forget (.watch s.cur.blk s.cur.beam)).sDone)))

/-- R165 WAITW. -/
def execWaitw (d a : BitVec 5) (nt : Bool) (s : State) : Out :=
  .next (s.notInHandler 0x3F (fun s =>
    let b := s.cur.blk
    let j := s.cur.beam
    let t := s.rs a
    if s.me.watch.isEmpty then (s.ws d 2).advance
    else
      match State.hitIndex s.me.watch with
      | some k => s.endWait b j d (BitVec.ofNat 64 (4 * k))
      | none =>
        if t = 0 then s.endWait b j d 1
        else (s.park (.waitw (if t = BitVec.allOnes 64 then none else some (s.now + t.toNat)) nt t.toNat 0)).tapBeam b j 0x19 0 (s.me.watchVa 0) 0 0))

/-- R163, R165, R360: a beam that runs and is parked in WAITW: its deadline, form, timeout and counted time. -/
def State.parkedWait (s : State) (b j : Nat) : Option (Option Nat × Bool × Nat × Nat) :=
  if s.onCore b && (s.block b).halt.isNone && !(s.beamAt b j).exited then
    match (s.beamAt b j).spark with
    | .waitw dl nt t counted => some (dl, nt, t, counted)
    | _ => none
  else none

/-- R166, R168: the ref ticks within which a hit on an entry makes the WAITW of a beam on core `c` ready: by the home of the
line, and 1 µs more for an overflowed one. -/
def wakeBound (c : Nat) (e : WatchE) : Nat :=
  (match e.loc.sp with
    | .remote _ => 800
    | .host => 200
    | .phys => if e.loc.addr / 2 ^ 38 = c / 96 then 100 else 200
    | _ => 100) + (if e.ovf then 100 else 0)

/-- R166: must the WAITW of a beam be woken before `ticks` more ref ticks pass. -/
def State.wakeDue (s : State) (b j ticks : Nat) : Bool :=
  (s.parkedWait b j).isSome && (s.beamAt b j).watch.any (fun e => e.hit && wakeBound (s.coreOf b) e < (s.beamAt b j).hitFor + ticks)

/-- R280: does a line home on a channel that a repair quiesces. -/
def State.quiesced (s : State) (l : Loc) : Bool :=
  l.sp = .phys && (match (s.die (l.addr / 2 ^ 38)).quiesce with
    | some (r, t) => s.now < t && (State.rowOf (l.addr / 64)).stack = r.stack && (State.rowOf (l.addr / 64)).channel = r.channel
    | none => false)

/-- R166 WAITW_WAKE: some entry of the set holds a hit. -/
def execWaitwWake (blk beam : Nat) (s : State) : Out :=
  .next (match s.parkedWait blk beam with
    | some _ => if (State.hitIndex (s.beamAt blk beam).watch).isSome then s.wakeWait blk beam else s
    | none => s)

/-- R165 WAITW_TIMEOUT: the deadline has passed, and no entry holds a hit. -/
def execWaitwTimeout (blk beam : Nat) (s : State) : Out :=
  .next (match s.parkedWait blk beam with
    | some (some dl, nt, t, _) => if dl ≤ s.now then s.timeoutWait blk beam nt t else s
    | _ => s)

/-- R360 WATCHDOG_EXPIRY: 10 s of reference time counted in the park. -/
def execWatchdogExpiry (blk beam : Nat) (s : State) : Out :=
  .next (match s.parkedWait blk beam with
    | some (_, nt, t, counted) => if 1000000000 ≤ counted then s.timeoutWait blk beam nt t else s
    | none => s)

end Sys2Proof.Machine
end

