-- ==== Sys2Proof/Machine/Image.lean ====
section
/-! DEFINITION. Stopping, saving and restoring a block (R222 to R225, R230), and where a block may stand (R174, R180, R371). -/

namespace Sys2Proof.Machine

/-- R229: a context that is torn down or evicted owns no area, and no exchange runs for it: the area's words are 0. -/
def Core.disown (ctx : Nat) (k : Core) : Core :=
  let k := { k with accReq := if k.accReq = some ctx then none else k.accReq }
  if k.accown = some ctx then { k with accown := none, acc := [], accPoison := [], acclive := [] } else k

/-- R225: bytes of a block's save image. -/
def Block.imageBytes (k : Block) : Nat := 4096 + 2048 * k.beams.length + 16384 * (k.regg + k.scrg) + 8192 + 24576 + 16384 * k.accg
/-- R174: granules of a block. -/
def Block.granules (k : Block) : Nat := k.regg + k.scrg + k.accg

/-- R180: the partition and slot of beam `j`, where one is free (log entry 34, DESIGN CHOICE). -/
def spotFor (taken : List (Nat × Nat)) (j : Nat) : Option (Nat × Nat) :=
  (List.range 4).findSome? (fun d =>
    let p := (j + d) % 4
    ((List.range 8).find? (fun i => !taken.contains (p, i))).map (fun i => (p, i)))
/-- R180: the spots of `n` beams from beam `j` on. -/
def spotsFrom (taken : List (Nat × Nat)) : Nat → Nat → Option (List (Nat × Nat))
  | 0, _ => some []
  | n + 1, j => (spotFor taken j).bind (fun p => (spotsFrom (p :: taken) n (j + 1)).map (fun r => p :: r))

namespace State

/-! ### Cores -/

/-- The blocks that stand on a core. -/
def onCoreOf (s : State) (c : Nat) : Tab Block := s.blocks.filter (fun e => e.2.core = c && e.2.resident && !e.2.ended)
/-- R180: the beam slots in use on a core. -/
def takenSpots (s : State) (c : Nat) : List (Nat × Nat) := (s.onCoreOf c).flatMap (fun e => e.2.beams.map (fun x => (x.2.part, x.2.bslot)))
/-- R174: is there room on a core. -/
def roomFor (s : State) (c : Nat) (k : Block) : Bool :=
  ((s.onCoreOf c).map (fun e => e.2.granules)).sum + k.granules + (s.core c).scrubbing ≤ 64 && (spotsFrom (s.takenSpots c) k.beams.length 0).isSome
/-- R320: the tenant that owns the present slot of a shared core. -/
def slotOwner (s : State) (c : Nat) : Nat :=
  match s.tenants.first (fun _ t => t.shared.testBit c && t.slots.testBit (s.now / 400 % 256)) with | some e => e.1 | none => 0
/-- R371: may a context use a core now. -/
def mayUse (s : State) (ctx c : Nat) : Bool :=
  let x := s.ctxs.get ctx default
  let t := s.tenant x.tenant
  x.dies.testBit (dieOf c) && !(s.core c).withdrawn && !(match s.tests.find (c / 4) with | some f => f.running | none => false) && (t.hard.testBit c || (!x.nopre && t.shared.testBit c && s.slotOwner c = x.tenant && (s.core c).owner = x.tenant))
/-- The first accumulator granule of a block on a core: the area of a context is common to its blocks there (R211). -/
def accBaseFor (s : State) (ctx c b n : Nat) : Nat :=
  let others := s.blocks.filter (fun e => e.1 ≠ b && e.2.core = c && s.ctxOf e.1 = ctx && !e.2.ended)
  ((List.range 65).find? (fun a => others.all (fun e => a + n ≤ e.2.accBase || e.2.accBase + e.2.accg ≤ a))).getD 64
/-- R313: bytes of the images of a context's blocks. -/
def imagesOf (s : State) (ctx : Nat) : Nat := ((s.blocks.filter (fun e => s.ctxOf e.1 = ctx && !e.2.ended)).map (fun e => e.2.imageBytes)).sum

/-! ### Entries -/

/-- The stream-engine entries of a block, with their queues. -/
def seOf (s : State) (b : Nat) : List (Nat × SEntry) :=
  [0, 1, 2, 3].flatMap (fun q => ((s.core (s.coreOf b)).se.get q []).filterMap (fun e => if e.blk = b then some (q, e) else none))
/-- R41: no entry and no accepted update of the block is left. -/
def blockIdle (s : State) (b : Nat) : Bool :=
  (s.seOf b).isEmpty && !((s.core (s.coreOf b)).quad.any (fun e => e.blk = b && !e.done)) && !((s.core (s.coreOf b)).boPend.any (fun u => u.blk = b))
/-- R328: the requests of the entry that a queue moves, if it is a block's, are awaited no longer by the queue. -/
def dropMoving (b q : Nat) (s : State) : State :=
  let c := s.coreOf b
  match ((s.core c).se.get q []).find? (fun e => !e.done && !s.heldEntry q e) with
  | some e => if e.blk = b then s.dropReqs (s.tenantOf b) (· == .engine c q) else s
  | none => s
/-- Removes every entry of a block from its core's queues. -/
def dropEntries (b : Nat) (s : State) : State :=
  ([0, 1, 2, 3].foldl (fun s q => s.dropMoving b q) s).setCore (s.coreOf b) (fun k => { k with se := k.se.mapV (fun _ l => l.filter (fun e => e.blk != b)), quad := k.quad.filter (fun e => e.blk != b) })

/-- R224: started stream-engine entries of a block run to completion, except those that stall. -/
def settleSe (b : Nat) (s : State) : State :=
  let c := s.coreOf b
  (s.seOf b).foldl (fun s p =>
    if p.2.kind = .fence || !p.2.started then s
    else
      let s := if p.2.done || p.2.stall.isSome then s else s.runRows c p.1 p.2 4097
      match ((s.core c).se.get p.1 []).find? (fun e => e.id = p.2.id) with
      | some e =>
        if e.done then ((s.dropEntry c p.1 e.id).completeAt b e.beam e.bo (e.shape.rows (e.kind == .gather) * e.shape.rowCount) 2 (afterCause 8 1 p.1 e)).tapEngine e p.1 1 else s
      | none => s) s

/-- R224: started loads, drains and zeroings of a block complete, and an MSTR whose rows are all written; but a drain that has written its tile
completes behind every earlier entry of the queue (R213), and one that may not complete yet is saved as it stands. -/
def settleQuad (b : Nat) (s : State) : State :=
  let c := s.coreOf b
  ((s.core c).quad.filter (fun e => e.blk = b && e.started && !e.done && !s.heldQ e)).foldl (fun s e =>
    match e.kind with
    | .mlds => s.mldsDone c e
    | .mzero => s.mzeroDone c e
    | .mdrain => if (((s.core c).quad.takeWhile (fun x => x.id != e.id)).all (fun x => x.done || s.heldQ x)) then s.drainDone c e else s
    | .mstr => if streamed e then (s.setQ c e.id (fun x => { x with done := true })).tapQuad e 1 e.size else s
    | _ => s) s

/-! ### Saving -/

/-- R215, R222: a SHUTTER stops a block: a halt with no trap, or the halt in which it stands already: its handler issues at most 8
further instructions, and none starts. -/
def quietSignal (b : Nat) (s : State) : State :=
  match (s.block b).halt with
  | some h => if h.quiet then s else s.setBlock b (fun k => { k with halt := some { h with quiet := true, left := 8, shut := s.now } })
  | none =>
    let s := (s.setBeams b (fun _ x => { x with skid := 0 })).setBlock b (fun k => { k with halt := some { stage := .signalled, since := s.now, quiet := true, shut := s.now } })
    let k := s.block b
    s.tapBeam b (s.firstBeam b) 0x03 (BitVec.ofNat 32 k.index) (k.launch.setWidth 32) (BitVec.ofNat 32 k.beams.length) 0
/-- R215 step 3: the stop is complete: with no trap, every beam records where it stands; a trap that was not delivered waits for
the restore, and so does a handler (R222). -/
def quietStop (b : Nat) (s : State) : State :=
  match (s.block b).halt with
  | some h =>
    if h.cause.isNone then (s.setBeams b (fun _ x => { x with tcg := 0, tdr0 := 0, tdr1 := 0, tdr2 := 0, tpc := x.spc, tlpc := match x.lit with | some u => u.pc | none => 0 })).setBlock b (fun k => { k with halt := none })
    else
      let s := if h.stage = .signalled then s.haltDone b else s
      s.setBlock b (fun k => { k with halt := k.halt.map (fun g => { g with quiet := false, left := 8, stage := if h.stage = .signalled then .stopped else g.stage }) })
  | none => s
/-- A SHUTTER that stops a block no more: it goes on where it stopped. -/
def unquiet (b : Nat) (s : State) : State :=
  match (s.block b).halt with
  | some h =>
    if !h.quiet then s
    else if h.cause.isNone then ((s.setBlock b (fun k => { k with halt := none })).takeHeld b).settle b
    else s.setBlock b (fun k => { k with halt := some { h with quiet := false, left := 8 } })
  | none => s

/-- R274: the core, as a save writes a record, as a tenant's `parked` list names it. -/
def saveWriter (b j r : Nat) : Nat × Nat × Nat := (2 ^ 32 + 4, 32 * b + j, r)
/-- R131, R132: at a save, the record of every fragment is written and every held clear is attempted; the answer is whether every
record stands (log entry 26, DESIGN CHOICE). -/
def writeRecords (b : Nat) (s : State) : Bool × State :=
  (s.block b).beams.foldl (fun r e =>
    let t := e.2.clears.foldl (fun s k => s.clearRecord b e.1 k) r.2
    e.2.frags.foldl (fun r f =>
      match r.2.corePut b (.lane b e.1 1000 f.1) (saveWriter b e.1 f.1) (r.2.recordVa b e.1 f.1) (recordBytes f.2) with
      | .ok t => (r.1, t)
      | .trap _ => r
      | .fault _ _ _ | .full => (false, r.2)
      | .wait _ t => (false, t)) (r.1, t)) (true, s)

/-- R222, R224, R231: nothing of a block is in flight that must end before its save: no access, no started entry but one that a page fault
stalls, and no exchange for its context. -/
def atRest (s : State) (b : Nat) : Bool :=
  s.accessesDone b && (s.core (s.coreOf b)).accReq != some (s.ctxOf b)
    && (s.seOf b).all (fun p => p.2.kind == .fence || !p.2.started || p.2.stall.isSome)

/-- R224, R225, R234: the image of a block that has stopped takes its entries, its planes and its fusion. An entry keeps its row, and begins
it anew. -/
def imageBlock (b : Nat) (s : State) : State :=
  let k := s.core (s.coreOf b)
  let se := (s.seOf b).map (fun p => (p.1, { p.2 with got := [], put := 0, out := [] }))
  let quad := k.quad.filter (fun e => e.blk = b && !e.done)
  let fuse := if k.lead ≠ 0 ∧ k.leadBlk = b then k.lead else 0
  s.setBlock b (fun x => { x with img := { x.img with se := se, quad := quad, active := k.active, shadow := k.shadow, fuse := fuse, altered := false } })

/-- R225: a context's save area reads undefined (log entry 3, DESIGN CHOICE). -/
def blurArea (ctx : Nat) (s : State) : State :=
  let (n, s) := s.takeFree
  { s with mem := (s.ctxs.get ctx default).area.foldl (fun m p => m.blur Space.phys.eccUnit (65536 * p) 65536 n) s.mem }

/-- A saved block leaves its core. -/
def departBlock (b : Nat) (s : State) : State :=
  let c := s.coreOf b
  let s := (s.dropEntries b).setBlock b (fun x => { x with resident := false })
  let s := if (s.block b).img.fuse ≠ 0 then s.endFusion c else s
  let s := if (s.onCoreOf c).isEmpty then s.setCore c (fun k => { k with active := {}, shadow := {} }) else s
  s.blurArea (s.ctxOf b)

/-- R222: is an MSTR of a block in flight: a boundary save holds no rows of one. -/
def streaming (s : State) (b : Nat) : Bool := (s.core (s.coreOf b)).quad.any (fun e => e.blk = b && e.kind == .mstr && e.started && !e.done)

/-- R14, R224, R225: saves blocks together: what is in flight ends first in all of them, and only then is any image taken. The answer is
whether the save is complete. -/
def saveAll (bs : List Nat) (s : State) : Bool × State :=
  let s := bs.foldl (fun s b => ((s.settleSe b).settleQuad b).performAllBo (s.coreOf b)) s
  if !bs.all s.atRest then (false, s)
  else
    let r := bs.foldl (fun r b => let x := r.2.writeRecords b; (r.1 && x.1, x.2)) (true, s)
    if !r.1 || !bs.all r.2.accessesDone then (false, r.2)
    else
      let s := bs.foldl (fun s b => s.quietStop b) r.2
      (true, bs.foldl (fun s b => s.departBlock b) (bs.foldl (fun s b => s.imageBlock b) s))

/-! ### Restoring -/

/-- R132: a fragment as its record holds it. -/
def fragOf (bs : List Byte) : LUnit := { pc := BitVec.ofNat 64 (numAt bs 0 4), mask := BitVec.ofNat 32 (numAt bs 4 4), token := BitVec.ofNat 12 (numAt bs 8 2) }

/-- R132: is a valid record refused. -/
def fragBad (s : State) (b : Nat) (x : Beam) (seen : W32) (bs : List Byte) : Bool :=
  let y := fragOf bs
  numAt bs 8 2 / 4096 ≠ 0 || numAt bs 10 6 ≠ 1 || (y.mask &&& seen) ≠ 0 || (y.mask &&& (x.dead ||| x.retired)) ≠ 0
    || y.pc.toNat ≥ (s.codeOf b).lcode.length

/-- R132: what a record's location holds as the restore reads it: none where it cannot be reached, or has not been answered. -/
def recordNow (b j r : Nat) (s : State) : Option (List Byte) × State :=
  let va := s.recordVa b j r
  match s.taskView (s.block b).task va (s.xlat (s.ctxOf b) (s.tenantOf b) va false) with
  | .ok l _ =>
    (match l.sp with
      | .remote node =>
        match s.remote (.lane b j 1001 r) 1 0 node l.addr 16 [] with
        | .wait t => (none, t)
        | .ok bs _ => (some ((s.seen b l bs).take 16), s)
        | .err _ => (none, s)
      | _ => (some (s.view b l 16), s))
  | _ => (none, s)

/-- R132, R355: before a restore reads the records of a block, every held clear is performed, or held where its page is not resident, and
the records that home on other packages are fetched; the answer is whether that is done. -/
def recordsReady (b : Nat) (s : State) : Bool × State :=
  let s := (s.block b).beams.foldl (fun s e => e.2.clears.foldl (fun s r => s.clearRecord b e.1 r) s) s
  let s := (s.block b).beams.foldl (fun s e => if e.2.exited then s else (List.range 64).foldl (fun s r => if e.2.clears.contains r then s else (s.recordNow b e.1 r).2) s) s
  (s.accessesDone b, s)

/-- R132, R224: a fragment as its record gives it; at the word and with the token that the core saved it with, it goes on with what it waits for
there. -/
def rebuilt (old : Option LUnit) (y : LUnit) : LUnit :=
  match old with
  | none => y
  | some o => if o.pc = y.pc && o.token = y.token then { o with mask := y.mask } else { y with queued := o.queued }

/-- R132: rebuilds the fragments of a beam from its records: the refused record, if any, stops it. A record that cannot be
reached leaves what the core holds (log entry 26, DESIGN CHOICE). -/
def rebuildFrags (b j : Nat) (s : State) : Except Nat State :=
  let x := s.beamAt b j
  let slots := (match x.lit with | some u => u.mask | none => 0) ||| (match x.shade with | some u => u.mask | none => 0)
  let r := (List.range 64).foldl (fun (r : Except Nat (Tab LUnit × W32)) i =>
    match r with
    | .error e => .error e
    | .ok (fs, seen) =>
      if x.clears.contains i then .ok (fs, seen)
      else
        match (s.recordNow b j i).1 with
        | some bs =>
          if numAt bs 10 1 % 2 = 0 then .ok (fs, seen)
          else if s.fragBad b x seen bs then .error i
          else
            let y := rebuilt (x.frags.find i) (fragOf bs)
            .ok (fs.put i y, seen ||| y.mask)
        | none => .ok (match x.frags.find i with | some y => (fs.put i y, seen ||| y.mask) | none => (fs, seen))) (.ok ([], slots))
  match r with
  | .error i => .error i
  | .ok (fs, _) => .ok (((s.setBeam b j (fun x => { x with frags := fs })).forgetLane b j 1001).unitsChanged b j fs.keys)

/-- R163, R168: the watches of a restored beam that the core's table has no entry for are overflowed; of a line that homes on another
package the first recheck takes the snapshot (log entry 62, DEDUCED). -/
def rewatch (b j : Nat) (s : State) : State :=
  (List.range (s.beamAt b j).watch.length).foldl (fun s i =>
    if s.watchUse (s.coreOf b) ≤ 64 then s
    else s.setBeam b j (fun x => { x with watch := x.watch.mapIdx (fun n w =>
      if n = i && !w.ovf then { w with ovf := true, snap := if (watchNode w).isSome then [] else s.peek w.loc 64 } else w) })) s

/-- R222, R225, R224: a block stands on core `c` again: spots by R180, and parked instructions evaluated again. Its live tiles on
another core are spilled by that core's firmware first, and come back where its context owns the area already (log entry 62, DEDUCED). -/
def standBlock (b c : Nat) (s : State) : State :=
  let old := s.coreOf b
  let ctx := s.ctxOf b
  let s := if old ≠ c ∧ (s.core old).accown = some ctx then s.leaveArea old b else s
  let spots := (spotsFrom (s.takenSpots c) (s.block b).beams.length 0).getD []
  let base := if old = c then (s.block b).accBase else s.accBaseFor ctx c b (s.block b).accg
  let (n, s) := s.fresh
  let stand (j : Nat) (x : Beam) : Beam :=
    let p := (spots[j]?).getD (x.part, x.bslot)
    { x with part := p.1, bslot := p.2, preq := 0, woken := false, read := none, spark := match x.spark with | .waitw d nt t n => .waitw d nt t n | .yield => .yield | y => y.kept }
  let s := s.setBlock b (fun k => { k with core := c, seq := n, resident := true, accBase := base, beams := k.beams.mapV stand })
  let s := if (s.core c).accown = some ctx then s.loadTiles c b else s
  (s.block b).beams.foldl (fun s e => s.rewatch b e.1) s

/-- R194, R208, R224: the numbers of the entries that some blocks' images hold, in order. -/
def savedIds (s : State) (bs : List Nat) : List Nat :=
  ((bs.flatMap (fun b => let i := (s.block b).img; i.se.map (fun p => p.2.id) ++ i.quad.map (·.id))).eraseDups).mergeSort (fun x y => x ≤ y)
/-- R224: a restored block's entries, its waits for them and the abort that holds some take new numbers from `base` on, by their place among
the numbers `ids` of all the entries that are restored with them (R208). -/
def renumber (b base : Nat) (ids : List Nat) (s : State) : State :=
  let i := (s.block b).img
  let below (n : Nat) : Nat := base + (ids.filter (fun x => x < n)).length
  let unit (y : LUnit) : LUnit := { y with mwait := y.mwait.map below }
  s.setBlock b (fun k => { k with
    img := { k.img with se := i.se.map (fun p => (p.1, { p.2 with id := below p.2.id })), quad := i.quad.map (fun e => { e with id := below e.id }) }
    heldQuad := k.heldQuad.map (fun h => below (h + 1) - 1)
    beams := k.beams.mapV (fun _ x => { x with lit := x.lit.map unit, shade := x.shade.map unit, frags := x.frags.mapV (fun _ y => unit y) }) })
/-- R208, R224: the entries of blocks that are restored together keep their order. -/
def renumberAll (bs : List Nat) (s : State) : State :=
  let ids := s.savedIds bs
  bs.foldl (fun t b => t.renumber b s.ids ids) { s with ids := s.ids + ids.length }

/-- R225: the core of a restored block gets its planes back. -/
def resumePlanes (b : Nat) (s : State) : State :=
  let c := s.coreOf b
  let i := (s.block b).img
  if (s.onCoreOf c).all (fun e => s.ctxOf e.1 = s.ctxOf b) then s.setCore c (fun k => { k with active := i.active, shadow := i.shadow }) else s

/-- R230, R234: before its entries, a restored block makes its first use of the area, and its fusion takes effect again. -/
def resumeArea (b : Nat) (s : State) : State :=
  let c := s.coreOf b
  let i := (s.block b).img
  let s := if i.quad.isEmpty then s else s.firstUse c (s.ctxOf b)
  if i.fuse ≠ 0 then s.beginFusion c b i.fuse else s

/-- R194, R196, R208, R224: the entries of blocks that are restored together go into their queues in the order in which they were enqueued, whatever
their blocks. -/
def resumeEntries (bs : List Nat) (s : State) : State :=
  let se := (bs.flatMap (fun b => (s.block b).img.se)).mergeSort (fun x y => x.2.id ≤ y.2.id)
  let quad := (bs.flatMap (fun b => (s.block b).img.quad)).mergeSort (fun x y => x.id ≤ y.id)
  let s := se.foldl (fun s p => s.enqueueSe (s.coreOf p.2.blk) p.1 p.2) s
  let s := quad.foldl (fun s e => s.setCore (s.coreOf e.blk) (fun k => { k with quad := k.quad ++ [e] })) s
  bs.foldl (fun s b => s.setBlock b (fun k => { k with img := { k.img with se := [], quad := [], active := {}, shadow := {}, fuse := 0 } })) s

/-- R132, R167, R169, R222: the beams of a restored block: fragments are rebuilt, a parked WAITW returns status 0 or times out,
and a parked TYIELD returns. A beam with a refused record keeps the fragments that the core had saved, and rebuilds none (log entry 26, DESIGN
CHOICE). A cause that the stop held back is taken (R217). -/
def resumeBeams (b : Nat) (s : State) : State :=
  ((s.block b).beams.foldl (fun s e =>
    if e.2.exited then s
    else
      let s := match s.rebuildFrags b e.1 with | .ok t => t | .error r => (s.forgetLane b e.1 1001).asyncTrap b e.1 { grp := 5, code := 5, d0 := r }
      match e.2.spark with
      | .waitw dl nt t _ => (match dl with
        | some d => if d ≤ s.now then s.timeoutWait b e.1 nt t else s.wakeWait b e.1
        | none => s.wakeWait b e.1)
      | .yield => s.setBeam b e.1 (fun x => { x with spark := .none, spc := x.spc + 1 })
      | _ => s) s).takeHeld b |>.settle b

/-- The saved blocks of a list. -/
def savedOf (s : State) (bs : List Nat) : List Nat := bs.filter (fun b => match s.blocks.find b with | some k => !k.resident && !k.ended | none => false)

/-- R14, R222: the cluster groups of a list of saved blocks. -/
def savedGroups (s : State) (bs : List Nat) : List (List Nat) :=
  let bs := s.savedOf bs
  let key (b : Nat) : Nat × Nat := ((s.block b).task, s.coreOf b / 4)
  (bs.map key).eraseDups.map (fun k => bs.filter (fun b => key b = k))

/-- R222, R249, R230: may a saved group go to a cluster now. -/
def groupFits (s : State) (ctx cl : Nat) (g : List Nat) : Bool :=
  g.all (fun b =>
    let c := 4 * cl + s.coreOf b % 4
    let k := s.block b
    s.mayUse ctx c && s.roomFor c k && (k.img.quad.isEmpty || s.areaFree c ctx)
    && (followers c k.img.fuse).all (fun f => s.areaFree f ctx)
    && s.blocks.all (fun e => e.2.task ≠ k.task || e.2.ended || !e.2.resident || (dieOf e.2.core = dieOf c && e.2.core / 4 ≠ cl)))

/-- R222, R238: every saved group of a list of a context's blocks gets a place, the first on cluster `first`, the others on their own cluster where
it can take them. It waits (none) while some group has no room, or a record has not been read (R132). -/
def standGroups (ctx first : Nat) (all : List Nat) (s : State) : Option State × State :=
  let ready := (s.savedOf all).foldl (fun r b => let x := r.2.recordsReady b; (r.1 && x.1, x.2)) (true, s)
  if !ready.1 then (none, ready.2)
  else
    let r := (s.savedGroups all).foldl (fun (r : Option (State × Nat)) g =>
      match r with
      | none => none
      | some (t, n) =>
        let own := (match g with | b :: _ => t.coreOf b / 4 | [] => 0)
        match (if n = 0 then [first] else own :: List.range 96).find? (fun cl => t.groupFits ctx cl g) with
        | some cl => some (g.foldl (fun t b => t.standBlock b (4 * cl + t.coreOf b % 4)) t, n + 1)
        | none => none) (some (ready.2, 0))
    (r.map (·.1), ready.2)

/-- R224, R225: blocks that stand again go on: their planes, areas and fusions, their entries, and then their beams. -/
def resumeBlocks (bs : List Nat) (s : State) : State :=
  let s := (bs.foldl (fun t b => t.resumePlanes b) s).renumberAll bs
  let s := (bs.foldl (fun t b => t.resumeArea b) s).resumeEntries bs
  bs.foldl (fun t b => t.resumeBeams b) s

/-- R222: the saved blocks of a context are restored. The answer is whether it is done. -/
def restoreGroups (ctx first : Nat) (all : List Nat) (s : State) : Bool × State :=
  match s.standGroups ctx first all with
  | (some t, _) => (true, t.resumeBlocks (s.savedOf all))
  | (none, t) => (false, t)

/-- The cluster that the model's own scheduler offers the first group of a ladder's saved blocks (log entry 16, DESIGN CHOICE). -/
def restoreCluster (s : State) (key : Nat) : Nat :=
  let ctx := s.ladderCtx key
  match s.savedGroups (s.ladders.get key {}).blocks with
  | g :: _ =>
    let own := (match g with | b :: _ => s.coreOf b / 4 | [] => 0)
    if s.groupFits ctx own g then own else ((List.range 96).find? (fun cl => s.groupFits ctx cl g)).getD 0
  | [] => 0

end State
end Sys2Proof.Machine
end

