-- ==== Sys2Proof/Machine/Pool.lean ====
section
/-! DEFINITION. Pages: the clean pool and the scrub queue of a die (R277, R278), and the device's marks (R303, R304). -/

namespace Sys2Proof.Machine

/-- R369: the die of a 64 KiB page. -/
def dieOfPage (p : Nat) : Nat := p / 0x400000

/-- The first `n` pages of a list of ranges, and what is left. -/
def takeRanges : Nat → List (Nat × Nat) → List Nat × List (Nat × Nat)
  | 0, l => ([], l)
  | _, [] => ([], [])
  | n, (p, k) :: r =>
    if k ≤ n then
      let (xs, rest) := takeRanges (n - k) r
      ((List.range k).map (fun i => p + i) ++ xs, rest)
    else ((List.range n).map (fun i => p + i), (p + n, k - n) :: r)

/-- R249, R250, R335: the launch record's fields, as read. -/
def Launch.ofBytes (l : List Byte) : Launch where
  entry := BitVec.ofNat 64 (numAt l 0 8)
  poolpart := BitVec.ofNat 32 (numAt l 8 4)
  beams := numAt l 12 1
  tile := numAt l 13 1
  mirror := numAt l 14 1 % 2 = 1
  pbase := BitVec.ofNat 64 (numAt l 16 8)
  prsize := numAt l 24 4
  nblocks := numAt l 28 2
  beam := (List.range 32).map (fun b => BitVec.ofNat 8 (numAt l (32 + b) 1))
  npred := numAt l 64 2
  nsucc := numAt l 68 1 % 16
  nrev := numAt l 68 1 / 16
  succ := BitVec.ofNat 64 (numAt l 72 8)
  revtab := BitVec.ofNat 64 (numAt l 80 8)
  handle := BitVec.ofNat 64 (numAt l 96 8)
  objver := numAt l 104 4
  args := BitVec.ofNat 64 (numAt l 112 8)
  rsv := numAt l 14 2 / 2 != 0 || [(30, 2), (66, 2), (69, 3), (88, 8), (108, 4), (120, 8)].any (fun e => numAt l e.1 e.2 != 0)

namespace Launch
/-- R172: the granules of each kind. -/
def regg (l : Launch) : Nat := l.poolpart.toNat % 64
def scrg (l : Launch) : Nat := l.poolpart.toNat / 2 ^ 8 % 64
def accg (l : Launch) : Nat := l.poolpart.toNat / 2 ^ 16 % 64
/-- R335: units and role of beam `b`. -/
def units (l : Launch) (b : Nat) : Nat := ((l.beam[b]?).getD 0).toNat % 64
def role (l : Launch) (b : Nat) : Nat := ((l.beam[b]?).getD 0).toNat / 64
/-- R335: blocks of a task. -/
def blocks (l : Launch) : Nat := if l.nblocks = 0 then 1 else l.nblocks
/-- R134, R335: the initial tile width. -/
def width (l : Launch) : Nat := if l.tile = 0 then 32 else l.tile
/-- R337: bytes of one block's private area. -/
def pblock (l : Launch) : Nat := (32 * l.beams * l.prsize + 1024 * l.beams + 4095) / 4096 * 4096

/-- R173, R251, R336: the failed conditions of the record itself, as bits of `tdr1`; a TENQ and a PROGRAM start ignore `nrev` and `revtab` (R251, R315). -/
def bits (l : Launch) (tenq : Bool := false) : Nat :=
  let bs := List.range (min l.beams 32)
  let rsvPool := l.poolpart.toNat / 64 % 4 + l.poolpart.toNat / 2 ^ 14 % 4 + l.poolpart.toNat / 2 ^ 22
  let bit5 := l.rsv || rsvPool != 0 || l.beams = 0 || 32 < l.beams
    || ((List.range 32).drop l.beams).any (fun b => (l.beam[b]?).getD 0 != 0)
    || 8 < l.nsucc || (0 < l.nsucc && l.succ.toNat % 8 != 0) || (!tenq && (8 < l.nrev || (0 < l.nrev && l.revtab.toNat % 32 != 0)))
    || !([0, 16, 32].contains l.tile) || l.prsize % 16 != 0 || l.args.toNat % 64 != 0
  (if l.regg = 0 then 1 else 0) + (if l.regg + l.scrg + l.accg ≤ 64 then 0 else 2)
    + (if bs.all (fun b => 1 ≤ l.units b && l.units b ≤ 40) then 0 else 4)
    + (if (bs.map l.units).sum ≤ 16 * l.regg then 0 else 8)
    + (if bs.all (fun b => l.role b != 0) then 0 else 16) + (if bit5 then 32 else 0)
end Launch

namespace State

/-- Pages in the clean pool of a die (R279). -/
def poolPages (s : State) (d : Nat) : Nat := ((s.die d).clean.map (fun e => e.2)).sum

/-- R278: draws `n` pages from a die's clean pool, or nothing where it is short. -/
def takePages (d n : Nat) (s : State) : Option (List Nat × State) :=
  if s.poolPages d < n then none
  else
    let (xs, rest) := takeRanges n (s.die d).clean
    some (xs, s.setDie d (fun x => { x with clean := rest }))

/-- R325 type 18. -/
def postRepair (r : RowId) (kind : Nat) (s : State) : State :=
  s.postHv 18 (toBytes 1 r.die ++ toBytes 1 r.stack ++ toBytes 1 r.channel ++ toBytes 1 kind ++ toBytes 4 r.row ++ toBytes 8 0)

/-- The rows of a 64 KiB page. -/
def pageRows (p : Nat) : List RowId := ((List.range 1024).map (fun i => rowOf (1024 * p + i))).eraseDups

/-- R281: does a page hold a row of its die's hard-repair lists, or one that a full list leaves to page retirement. -/
def pageBad (s : State) (p : Nat) : Bool :=
  let d := s.die (dieOfPage p)
  (!d.hard.isEmpty || !d.retire.isEmpty) && (pageRows p).any (fun r => d.hard.contains r || d.retire.contains r)

/-- R277, R281: a page is retired from allocation. -/
def retirePage (p : Nat) (s : State) : State :=
  if (s.die (dieOfPage p)).retired.contains p then s
  else (s.setDie (dieOfPage p) (fun x => { x with retired := x.retired ++ [p] })).postRepair (((pageRows p).head?).getD (rowOf (1024 * p))) 3

/-- R277: pages join the scrub queues of their dies; one that R281 retires is retired there. -/
def freePages (ps : List Nat) (s : State) : State :=
  ps.foldl (fun s p => if s.pageBad p then s.retirePage p else s.setDie (dieOfPage p) (fun x => { x with scrubq := x.scrubq ++ [.page p 0] })) s

/-- R278: an allocation asks for pages in request order: it draws them when no earlier one of the die waits (log entry 39, DESIGN CHOICE). -/
def allocFor (id d n : Nat) (s : State) : Option (List Nat × State) :=
  let q := (s.die d).waitq
  if q.isEmpty || q[0]? = some id then
    (s.takePages d n).map (fun r => (r.1, r.2.setDie d (fun x => { x with waitq := x.waitq.filter (· != id) })))
  else none
/-- It joins the die's requests. -/
def waitFor (id d : Nat) (s : State) : State := s.setDie d (fun x => if x.waitq.contains id then x else { x with waitq := x.waitq ++ [id] })
/-- It asks no longer. -/
def noWait (id : Nat) (s : State) : State := { s with dies := s.dies.mapV (fun _ x => { x with waitq := x.waitq.filter (· != id) }) }

/-! ### Marks -/

/-- The area that holds slot `k` = 65536 area + slot. -/
def areaAt (s : State) (k : Nat) : Option Area := s.recon.areas.find? (fun a => a.index = k / 65536)

/-- R304: stores a slot's mark: bytes 8 to 15 first. -/
def writeMark (k : Nat) (s : State) : State :=
  match s.recon.root, s.areaAt k with
  | some r, some a =>
    let m := r.markbase + 16 * (a.markidx + k % 65536 - 1)
    let x := s.slot k
    (s.hostPut (m + 8) 8 x.conv).hostPut m 8 (x.obsv % 2 ^ 60 + x.state * 2 ^ 60)
  | _, _ => s

/-- R303, R304, R308: changes a slot and writes its mark if its state or version changed; one that becomes CONVERGED
begins a pass. -/
def setMark (k : Nat) (f : Slot → Slot) (s : State) : State :=
  let old := s.slot k
  let s := s.setSlot k f
  let new := s.slot k
  if old.state = new.state ∧ old.obsv = new.obsv then s
  else
    let s := (s.writeMark k).tapDev 0 0 0 0x3D (BitVec.ofNat 32 (recId new.want)) (BitVec.ofNat 32 new.obsv) 0 0
    if new.state = 3 && old.state ≠ 3 then s.setRecon (fun r => { r with due := true }) else s

end State
end Sys2Proof.Machine
end

