-- ==== Sys2Proof/Machine/Tasks.lean ====
section
/-! DEFINITION. Tasks (R249 to R257), forks, revisions and joins (R258 to R263, R297), the ends of blocks and of tasks. -/

namespace Sys2Proof.Machine

/-! ### The elements of a merge -/

/-- R259: bytes of an element type. -/
def elemBytes (et : Nat) : Nat := if et < 2 then 1 else if et < 4 then 2 else if et < 6 then 4 else if et < 8 then 8 else if et < 10 then 2 else 4
/-- R259: the format of a floating-point element type. -/
def elemFmt (et : Nat) : Fmt := if et = 8 then .f16 else if et = 9 then .bf16 else .f32

/-- R259: the result where both sides changed. -/
def bothChanged (et mg a p c : Nat) : Nat :=
  let w := 8 * elemBytes et
  let f := elemFmt et
  let less (x y : Nat) : Bool := if et % 2 = 1 then decide (signedOf w x < signedOf w y) else decide (x < y)
  match mg with
  | 0 => p
  | 1 => c
  | 2 => (p + c + 2 ^ w - a) % 2 ^ w
  | 3 =>
    let d := FVal.encode f .rne false (FVal.add .rne (FVal.decode f c) (FVal.decode f a).negate)
    FVal.encode f .rne false (FVal.add .rne (FVal.decode f p) (FVal.decode f d))
  | 4 => if et < 8 then (if less c p then c else p) else fminmaxOf f false p c
  | 5 => if et < 8 then (if less p c then c else p) else fminmaxOf f true p c
  | _ => a ^^^ ((p ^^^ a) ||| (c ^^^ a))

/-- R263: the merge of the elements of a line from byte `i` on: the merged bytes and the both-changed count. -/
def mergeElems (et mg : Nat) (a p c : List Byte) : Nat → Nat → List Byte × Nat
  | 0, _ => ([], 0)
  | n + 1, i =>
    let w := elemBytes et
    let (bs, k) := mergeElems et mg a p c n (i + w)
    let x := numAt a i w
    let y := numAt p i w
    let z := numAt c i w
    if z = x then (toBytes w y ++ bs, k)
    else if y = x then (toBytes w z ++ bs, k)
    else (toBytes w (bothChanged et mg x y z) ++ bs, k + 1)

/-- R263: the merge of one line. -/
def mergeLine (e : RevEnt) (a p c : List Byte) : List Byte × Nat := mergeElems e.etype e.merge a p c (64 / elemBytes e.etype) 0

/-- R258: the revision-table entry in 32 bytes. -/
def RevEnt.ofBytes (l : List Byte) : RevEnt where
  base := numAt l 0 8
  len := numAt l 8 8
  etype := numAt l 16 1
  merge := numAt l 17 1

/-- R258, R259: does an entry break its rules. -/
def revEntBad (l : List Byte) : Bool :=
  let e := RevEnt.ofBytes l
  numAt l 18 14 != 0 || 10 < e.etype || 6 < e.merge || (e.merge = 2 && 8 ≤ e.etype) || (e.merge = 3 && e.etype < 8)
    || e.len % 64 != 0 || e.base % 64 != 0 || !canonical (BitVec.ofNat 64 e.base) || !(aperture (BitVec.ofNat 64 e.base) == .glob)

/-- R258, R261: the covered virtual lines with their entries, in ascending entry and then ascending address. -/
def coveredLines (es : List RevEnt) : List (Nat × Nat) :=
  (List.range es.length).flatMap (fun i =>
    match es[i]? with
    | some e => ((List.range (e.len / 64)).map (fun k => (i, e.base + 64 * k))).filter (fun x => coverIdx es x.2 == some i)
    | none => [])

namespace State

/-! ### The task table and readiness -/

/-- R256: entries of a die's task table. -/
def tableUse (s : State) (d : Nat) : Nat :=
  s.tasks.count (fun _ t => t.home = d && (!t.ended || (t.forked && !t.joined))) + (s.credits.filter (fun c => c.die = d)).length
/-- R256: is there a free entry. -/
def tableFree (s : State) (d : Nat) : Bool := s.tableUse d < 65536

/-- R284: the task family's fields. -/
def tapTask (t code : Nat) (s : State) : State :=
  let k := s.task t
  s.tapDev k.home k.ctx k.tenant code (BitVec.ofNat 32 k.queue) (BitVec.ofNat 32 k.depth) (BitVec.ofNat 32 k.lr.npred) 0

/-- R253: a task becomes ready. -/
def makeReady (t : Nat) (s : State) : State :=
  let (n, s) := s.fresh
  (s.setTask t (fun k => { k with ready := some n })).tapTask t 0x25

/-- R255: adds one to the credit of an address, for a task of a context; a new entry needs room in the table. -/
def addCredit (d tenant ctx : Nat) (a : W64) (s : State) : Option State :=
  if s.credits.any (fun c => c.tenant = tenant && c.addr = a) then
    match s.credits.find? (fun c => c.tenant = tenant && c.addr = a) with
    | some c => some { s with credits := s.credits.map (fun x => if x = c then { x with givers := x.givers ++ [ctx] } else x) }
    | none => none
  else if s.tableFree d then some { s with credits := s.credits ++ [{ die := d, tenant := tenant, addr := a, givers := [ctx] }] }
  else none

/-- R255: one successor entry of a task that triggers. -/
def fireEntry (d tenant ctx : Nat) (a : W64) (s : State) : State :=
  match s.tasks.first (fun _ t => t.tenant = tenant && t.addr = a && 0 < t.count && !t.ended) with
  | some (id, t) =>
    let s := s.setTask id (fun k => { k with count := k.count - 1 })
    if t.count = 1 then s.makeReady id else s
  | none =>
    match s.addCredit d tenant ctx a with
    | some t => t
    | none => s.setDie d (fun x => { x with deferred := x.deferred ++ [(tenant, ctx, a)] })

/-- R255, R257: a task triggers, once. -/
def triggerTask (t : Nat) (s : State) : State :=
  let k := s.task t
  if k.triggered then s
  else (k.succ.foldl (fun s a => s.fireEntry k.home k.tenant k.ctx a) (s.setTask t (fun x => { x with triggered := true }))).tapTask t 0x27

/-- R238: is it a primary block, or one that is not mirrored. -/
def isPrimary (k : Block) : Bool := match k.mirror with | some m => m.primary | none => true

/-- R257: every block of the task but `b` has triggered. -/
def othersTriggered (s : State) (t b : Nat) : Bool :=
  s.blocks.count (fun i k => k.task = t && i ≠ b && k.trig && isPrimary k) + 1 ≥ (s.task t).lr.blocks

/-- R257: a block triggers. -/
def triggerBlock (b : Nat) (s : State) : State :=
  if (s.block b).trig then s
  else
    let t := (s.block b).task
    let s := s.setBlock b (fun k => { k with trig := true })
    if s.othersTriggered t b then s.triggerTask t else s

/-! ### The end of a block and of a task -/

/-- R41, R174, R219: a block leaves its core for good: its late stores are performed, its granules return, its entries and live tiles go, and a fusion
that it led ends. It triggers by retirement, the last one only after the implicit joins (R257). -/
def retireBlock (b : Nat) (terminated : Bool) (s : State) : State :=
  let k := s.block b
  if k.ended then s
  else
    let c := k.core
    let s := (s.performBlock b).dropEntries b
    let s := if (s.core c).lead ≠ 0 && (s.core c).leadBlk = b then s.endFusion c else s
    let tiles := (List.range (4 * k.accg)).map (fun v => s.tileOf b v)
    let s := if (s.core c).accown = some (s.ctxOf b) then s.setCore c (fun x => { x with acclive := x.acclive.filter (fun v => !tiles.contains v) }) else s
    let s := s.setCore c (fun x => { x with boPend := x.boPend.filter (fun u => u.blk != b) })
    let es := k.beams.flatMap (fun e => e.2.watch)
    let s := (s.unwatch es).setBlock b (fun x => { x with ended := true, resident := false, scratch := {}, halt := none, causes := [], img := {}, mirror := x.mirror.map (fun m => { m with gate := [] }), beams := x.beams.mapV (fun _ y => { y with exited := true, watch := [], spark := .none }) })
    let s := { s with ckpts := s.ckpts.del b, ladders := s.ladders.mapV (fun _ l => { l with blocks := l.blocks.filter (· != b) }) }
    let s := s.forgetBlock b
    let s := if (s.onCoreOf c).isEmpty then s.setCore c (fun k => { k with active := {}, shadow := {} }) else s
    if !isPrimary k then s
    else
      let s := (s.tapBeam b 0 (if terminated then 0x02 else 0x01) (BitVec.ofNat 32 k.index) (k.launch.setWidth 32) (BitVec.ofNat 32 k.beams.length) 0)
      let s := s.setTask k.task (fun t => { t with retired := t.retired + 1, killed := t.killed + (if terminated then 1 else 0) })
      if k.trig || s.othersTriggered k.task b then s else s.triggerBlock b

/-- R261, R297: a child's reservation returns: its lines to the quota, its pages to the scrub queue (R277). -/
def returnRev (t : Nat) (s : State) : State :=
  match (s.task t).rev with
  | none => s
  | some r =>
    let s := s.setTenant (s.task t).tenant (fun x => { x with revUsed := x.revUsed - r.need })
    (s.freePages r.pages).setTask t (fun k => { k with rev := none })

/-- R328: the requests of the merges of a context's tasks, which go, are still awaited. -/
def forgetMerges (ctx : Nat) (s : State) : State :=
  s.dropReqs (s.ctxs.get ctx default).tenant (fun w => match w with | .merge t => (s.task t).ctx = ctx | _ => false)

/-- How the merge of a line stands: done, waiting for a remote answer (its request sent), for space in a tenant's dirty log, or for a
mapping. -/
inductive Join where
  | done (counts : List Nat) (s : State)
  | remote (s : State)
  | full (s : State)
  | absent

/-- The view of a line for a merge into a task: where it is written, and the page for the dirty log. -/
def mergeTarget (s : State) (t va : Nat) : Xl := s.taskView t va (s.xlat (s.task t).ctx (s.task t).tenant va true)

/-- R271: where a line that is being merged goes: where its write went, once that has been sent. -/
def mergeAt (s : State) (kid t va : Nat) : Xl :=
  match s.fab.reqs.first (fun _ r => r.who == .merge kid && r.msg.op = 3) with
  | some (_, r) =>
    let l : Loc := { sp := .remote r.msg.dst.toNat, addr := r.msg.addr.toNat / 64 * 64 }
    .ok l (match s.mergeTarget t va with | .ok m page => if m = l then page else none | _ => none)
  | none => s.mergeTarget t va

/-- R259: a count grows by the both-changed elements of a line, saturating. -/
def addCount (counts : List Nat) (i n : Nat) : List Nat := counts.set i (min ((counts[i]?).getD 0 + n) 0xFFFFFFFE)

/-- R274: the merge of a child, as a tenant's `parked` list names it. -/
def mergeWriter (kid : Nat) : Nat × Nat × Nat := (2 ^ 32 + 1, kid, 0)

/-- R263: what of a merge stands at another package: `n` bytes at an address, of element types `et` and merge `mg`, with the ancestor's and the
child's bytes. -/
structure FarPart where
  node : Nat
  addr : Nat
  n : Nat
  et : Nat
  mg : Nat
  a : List Byte
  c : List Byte
  page : Option (Nat × Nat × Nat)

/-- How such a part stands: done, with its both-changed count and whether it was written; waiting; for space in the log; or poisoned there. -/
inductive FarMerge where
  | done (n : Nat) (wrote : Bool) (s : State)
  | wait (s : State)
  | full (s : State)
  | poisoned (s : State)

/-- R263, R355: a part is read at its home, and one compare-and-swap there writes what the merge makes of it: another write that falls between
makes it fail, and the part is read again (log entry 30, DESIGN CHOICE). -/
def mergePart (kid cid : Nat) (x : FarPart) (s : State) : FarMerge :=
  let w := mergeWriter kid
  let merged (p : List Byte) : List Byte × Nat := mergeElems x.et x.mg x.a p x.c (x.n / elemBytes x.et) 0
  let propose (p : List Byte) (s : State) : FarMerge :=
    let m := merged p
    if m.1 = p then .done m.2 false s
    else if s.dirtyFull x.page (some w) then .full (s.parkFull x.page (some w))
    else
      match (s.logDirty x.page 3 cid).remote (.merge kid) 3 9 x.node x.addr x.n (p ++ m.1) with
      | .wait t => .wait t
      | _ => .poisoned s
  match s.fab.reqs.first (fun _ r => r.who == .merge kid && r.msg.op = 3 && r.msg.dst.toNat = x.node && r.msg.addr.toNat = x.addr && r.msg.size.toNat = 2 * x.n) with
  | some (_, r) =>
    (match r.outcome s with
      | .wait t => .wait t
      | .err _ => .done 0 false s
      | .ok old poison =>
        if poison then .poisoned s
        else if old.take x.n = r.msg.data.take x.n then .done (merged (r.msg.data.take x.n)).2 true s
        else .wait (s.setFab (fun f => { f with reqs := f.reqs.filter (fun e => !(e.2.who == .merge kid && e.2.msg.dst.toNat = x.node && e.2.msg.addr.toNat = x.addr)) })))
  | none =>
    match s.remote (.merge kid) 1 0 x.node x.addr x.n [] with
    | .wait t => .wait t
    | .err _ => .done 0 false s
    | .ok p poison => if poison then .poisoned s else propose (p.take x.n) s

/-- R161, R263: a line of another package that holds poison, or takes it from the child or the ancestor (`bad`), is merged word by word: its
poisoned words are left as they are, and this package keeps those that took poison (log entry 30, DESIGN CHOICE). -/
def mergeWords (kid cid : Nat) (bad : List Nat) (x : FarPart) : List Nat → Nat → Bool → State → FarMerge
  | [], n, wrote, s => .done n wrote s
  | i :: r, n, wrote, s =>
    if bad.contains i then
      let word := (x.node, x.addr / 8 + i)
      mergeWords kid cid bad x r n true (s.setFab (fun f => { f with bad := if f.bad.contains word then f.bad else f.bad ++ [word] }))
    else
      match mergePart kid cid { x with addr := x.addr + 8 * i, n := 8, a := (x.a.drop (8 * i)).take 8, c := (x.c.drop (8 * i)).take 8 } s with
      | .done k w t => mergeWords kid cid bad x r (n + k) (wrote || w) t
      | .poisoned t => mergeWords kid cid bad x r n wrote t
      | y => y

/-- R263, R272: one line of a merge: `P` is read, and the merged line is written where it differs, as one read-modify-write; a word that
is poisoned in any of the three lines stays so (R161), and a line that no mapping lets the task write is left as it is (log entry 30, DESIGN CHOICE). -/
def mergeOne (kid parent : Nat) (r : Rev) (i va : Nat) (counts : List Nat) (s : State) : Join :=
  let e := (r.ents[i]?).getD {}
  let a := r.anc.bytes va 64
  let c := r.mine.bytes va 64
  let bad := orWords (r.mine.badWords va) (r.anc.badWords va)
  let same := a = c && r.mine.badWords va == r.anc.badWords va
  let cid := s.cidOf (s.task parent).ctx
  let w := mergeWriter kid
  let tap (n : Nat) (t : State) : State := t.tapDev (s.task parent).home (s.task parent).ctx (s.task parent).tenant 0x2A 1 (BitVec.ofNat 32 n) 0 0
  match s.mergeAt kid parent va with
  | .trap _ => .done counts s
  | .fault _ _ _ => .absent
  | .ok l page =>
    match l.sp with
    | .remote node =>
      if same then .done counts s
      else
        let x : FarPart := { node := node, addr := l.addr, n := 64, et := e.etype, mg := e.merge, a := a, c := c, page := page }
        match (match (if bad.isEmpty then mergePart kid cid x s else FarMerge.poisoned s) with | .poisoned t => mergeWords kid cid bad x (List.range 8) 0 false t | y => y) with
        | .done n wrote t => .done (addCount counts i n) (if wrote then tap n t else t)
        | .wait t => .remote t
        | .full t => .full t
        | .poisoned t => .done counts t
    | _ =>
      let p := s.peek l 64
      let m := mergeLine e a p c
      let bad := orWords bad ((s.memOf l.sp).badWords l.addr)
      if m.1 = p && (bad.isEmpty || same) then .done (addCount counts i m.2) s
      else if s.dirtyFull page (some w) then .full (s.parkFull page (some w))
      else
        let t := (s.logDirty page 3 cid).poke l m.1
        .done (addCount counts i m.2) (tap m.2 (t.spoilWords l bad))

/-- R262, R263: the lines of a join in order, each merged at once and kept: the state, and whether all are merged (log entry 31, DEDUCED). -/
def mergeLines (kid parent : Nat) : List (Nat × Nat) → State → Bool × State
  | [], s => (true, s)
  | (i, va) :: l, s =>
    match (s.task kid).rev with
    | none => (true, s)
    | some r =>
      match mergeOne kid parent r i va r.counts s with
      | .done c t => mergeLines kid parent l (((t.forget (.merge kid)).unpark (mergeWriter kid)).setTask kid (fun k => { k with rev := k.rev.map (fun r => { r with merged := r.merged + 1, counts := c }) }))
      | .remote t => (false, t)
      | .full t => (false, t)
      | .absent => (false, s)

/-- R263, R297: joins an ended child into a task's view, from the first line that is not merged yet: the counts, or none where the
join has to wait. -/
def joinKid (kid parent : Nat) (s : State) : Option (List Nat) × State :=
  match (s.task kid).rev with
  | none => (some (List.replicate 8 0), s.setTask kid (fun k => { k with joined := true }))
  | some r =>
    let (done, t) := mergeLines kid parent ((coveredLines r.ents).drop r.merged) s
    if done then (some (((t.task kid).rev.map (·.counts)).getD []), (t.returnRev kid).setTask kid (fun k => { k with joined := true })) else (none, t)

/-- R262: the beam of another TJOIN performs a join of the child. -/
def joinBusy (s : State) (kid : Nat) : Bool :=
  match (s.task kid).rev.bind (·.joiner) with
  | some (b, j) => !(b = s.cur.blk && j = s.cur.beam) && !(s.block b).ended && !(s.beamAt b j).exited && (s.beamAt b j).spark == .join
  | none => false

/-- R263, R315: the end of a task whose last block has retired and whose joins are done. The mark of its PROGRAM becomes ENDED, whether the
version in force was the one last observed or a later one was refused. -/
def endTask (t : Nat) (s : State) : State :=
  let k := s.task t
  let s := (s.triggerTask t).setTask t (fun x => { x with ended := true, ready := none })
  let s := { s with blocks := s.blocks.filter (fun e => e.2.task != t) }
  let s := if 2 ^ 32 ≤ k.prog && !(s.tasks.any (fun e => e.2.prog = k.prog && !e.2.ended)) then { s with progs := s.progs.del k.prog } else s
  if k.starts && !k.stopped then
    let s := s.postCtx k.ctx 4 (toBytes 4 k.prog ++ toBytes 4 k.killed ++ toBytes 8 0)
    match s.slotOf k.prog with
    | some i => if (s.slot i).state = 3 || (s.slot i).state = 4 then s.setMark i (fun x => { x with state := 7 }) else s
    | none => s
  else s

/-! ### Reading a launch record -/

/-- R339, R340, R346: a version of a program is retained while it is the newest or a task is bound to it. -/
def retained (s : State) (p v : Nat) : Bool :=
  let g := s.progs.get p default
  (g.versions.find v).isSome && (g.newest = v || s.tasks.any (fun e => e.2.prog = p && e.2.ver = v && !e.2.ended))

/-- R336, R339: the program of a handle, for a tenant, whose record is CONVERGED. -/
def progOf (s : State) (tenant : Nat) (h : W64) : Option Nat :=
  match s.progs.find h.toNat with
  | some p => if p.stage = 3 && p.tenant = tenant && s.isConverged h.toNat then some h.toNat else none
  | none => none

/-- R340: the program and version that a task created by task `t` binds to, if there is one. -/
def bindOf (s : State) (t : Nat) (lr : Launch) : Option (Nat × Nat) :=
  let p := if lr.handle = 0 then some (s.task t).prog else s.progOf (s.task t).tenant lr.handle
  p.bind (fun p =>
    let v := if lr.objver ≠ 0 then lr.objver else if lr.handle = 0 then (s.task t).ver else (s.progs.get p default).newest
    if (lr.handle = 0 && lr.objver = 0) || s.retained p v then some (p, v) else none)

/-- R336, R340: a launch record of task `t` names an object or a version that is not there, or an entry beyond its code. -/
def unbound (s : State) (t : Nat) (lr : Launch) : Bool :=
  match s.bindOf t lr with
  | some (p, v) => lr.entry.toNat ≥ ((s.progs.get p default).versions.get v default).scode.length
  | none => true

/-- R173, R251, R336: `tdr1` of ILLEGAL.LAUNCH for a launch record at a TENQ or TFORK of task `t` (log entry 37, DEDUCED). -/
def launchBits (s : State) (t : Nat) (fork : Bool) (lr : Launch) : Nat :=
  let b := lr.bits (!fork)
  let bad := lr.pbase = 0 || (lr.mirror && (s.tenant (s.task t).tenant).fmask.getLsbD 0) || (fork && (lr.npred != 0 || lr.nsucc != 0)) || s.unbound t lr
  if bad && b / 32 % 2 = 0 then b + 32 else b

/-- R218: ILLEGAL.LAUNCH. -/
def launchCause (bits : Nat) : Cause := { grp := 3, code := 7, d1 := BitVec.ofNat 32 bits }

/-- Continues a reading. -/
def andThen {α β : Type} (g : Got α) (k : α → State → Got β) : Got β :=
  match g with
  | .done x s => k x s
  | .trap c => .trap c
  | .wait p s => .wait p s
  | .kill s => .kill s

/-- R251: reads the launch record at an address, and its successor entries or its revision table where the record says where they lie; then
all of it is checked (log entry 37, DEDUCED). -/
def readLaunch (a : W64) (fork : Bool) (s : State) : Got TaskRead :=
  andThen (sRange 3 a 16 s) (fun raw s =>
    let lr := Launch.ofBytes raw
    let bits := s.launchBits (s.block s.cur.blk).task fork lr
    if fork then
      andThen (if lr.nrev ≤ 8 && lr.revtab.toNat % 32 = 0 then sRange 3 lr.revtab (4 * lr.nrev) s else .done [] s) (fun tab s =>
        let rows := (List.range (tab.length / 32)).map (fun i => (tab.drop (32 * i)).take 32)
        let bits := if rows.any revEntBad then bits ||| 32 else bits
        if bits ≠ 0 then .trap (launchCause bits) else .done { lr := lr, ents := rows.map RevEnt.ofBytes } s)
    else
      andThen (if lr.nsucc ≤ 8 && lr.succ.toNat % 8 = 0 then sRange 3 lr.succ lr.nsucc s else .done [] s) (fun tab s =>
        if bits ≠ 0 then .trap (launchCause bits) else .done { lr := lr, succ := (List.range lr.nsucc).map (fun i => BitVec.ofNat 64 (numAt tab (8 * i) 8)) } s))

/-- R251: the same, read once at issue: a parked instruction keeps it. -/
def launchOnce (a : W64) (fork : Bool) (s : State) : Got TaskRead :=
  match s.me.read with
  | some r => .done r s
  | none => andThen (s.readLaunch a fork) (fun r t => .done r (t.setMe (fun x => { x with read := some r })))

/-- A TENQ or TFORK is done: what it has read goes. -/
def launchDone (s : State) : State := (s.setMe (fun x => { x with read := none })).sDone

/-- R254, R261: a TENQ or TFORK traps after its launch record has been read: what it has read, and what it has reserved, go. -/
def launchTrap (c : Cause) (s : State) : State := ((s.forget s.whoMe).setMe (fun x => { x with read := none, spark := .none })).trapMe c

/-- R336, R339, R340: a task binds at the release: a TENQ or TFORK that has waited is refused where the object or the version that its launch record
names has gone by then. -/
def stillBinds (lr : Launch) (k : State → State) (s : State) : State :=
  if s.unbound (s.block s.cur.blk).task lr then s.launchTrap (launchCause 32) else k s

/-! ### TENQ -/

/-- R253: the slot that a task of depth `d` can take in a queue: 1 a general one, 1 + d the reserved one. -/
def freeSlot (s : State) (q d : Nat) : Option Nat :=
  let held (n : Nat) : Nat := s.tasks.count (fun _ t => t.queue = q && t.slot = n && !t.ended)
  if held 1 < (s.queues.get q default).cap then some 1
  else if 1 ≤ d && d ≤ 16 && held (1 + d) = 0 then some (1 + d) else none

/-- R254, R255: takes up to `n` credits of an address: what was taken, and the state without them. -/
def takeCredits (tenant : Nat) (a : W64) (n : Nat) (s : State) : Nat × State :=
  s.credits.foldl (fun r c =>
    if c.tenant = tenant && c.addr = a then
      let k := min c.givers.length (n - r.1)
      (r.1 + k, { r.2 with credits := r.2.credits.filter (fun x => !(x = c)) ++ (if c.givers.length = k then [] else [{ c with givers := c.givers.drop k }]) })
    else r) (0, s)

/-- R254: creates and enqueues the task. -/
def enqueueTask (q slot : Nat) (a : W64) (lr : Launch) (succ : List W64) (s : State) : State :=
  let t := s.task (s.block s.cur.blk).task
  let x := s.queues.get q default
  let pv := (s.bindOf (s.block s.cur.blk).task lr).getD (t.prog, t.ver)
  let (k, s) := s.takeCredits t.tenant a lr.npred
  let (id, s) := s.fresh
  let depth := min (t.depth + 1) 255
  let task : Task := { home := dieOf (s.coreOf s.cur.blk), ctx := x.ctx, tenant := t.tenant, lr := lr, addr := a, prog := pv.1, ver := pv.2, depth := depth, queue := q, slot := slot, count := lr.npred - k, dies := x.dies &&& (s.ctxs.get x.ctx default).dies, succ := succ }
  let s := { s with tasks := s.tasks.put id task }
  let s := s.tapBeam s.cur.blk s.cur.beam 0x24 (BitVec.ofNat 32 q) (BitVec.ofNat 32 depth) (BitVec.ofNat 32 lr.npred) 0
  if lr.npred = k then s.makeReady id else s

/-- R253, R309: the queue of a handle, for the issuing tenant, whose record is CONVERGED. -/
def queueOf (s : State) (h : W64) : Option Nat :=
  match s.queues.find h.toNat with
  | some q => if q.tenant = s.tenantOf s.cur.blk && s.isConverged h.toNat then some h.toNat else none
  | none => none

end State

/-- R254 TENQ. -/
def execTenq (a b : BitVec 5) (s : State) : Out :=
  .next (s.notMirrored 0x30 true (fun s => s.notInHandler 0x30 (fun s => s.afterRegions (fun s =>
    (s.launchOnce (s.rs a) false).finish s (fun r t =>
      match t.queueOf (t.rs b) with
      | none => if t.me.spark == .noQueue then t else (t.postFault t.cur.blk t.cur.beam 3 (t.rs b).toNat 0).park .noQueue
      | some q =>
        match t.freeSlot q (min ((t.taskOf t.cur.blk).depth + 1) 255) with
        | none => t.park .table
        | some slot => if t.tableFree (State.dieOf (t.coreOf t.cur.blk)) then t.stillBinds r.lr (fun t => (t.enqueueTask q slot (t.rs a) r.lr r.succ).launchDone) else t.park .table)))))

namespace State

/-! ### TFORK -/

/-- R261: a covered line's translation is checked, as a scalar load's is. -/
def forkCheck (va : Nat) (s : State) : Got Unit :=
  match s.locate s.cur.blk s.cur.beam 0 (BitVec.ofNat 64 va) false with
  | .trap c => .trap (memCause c 0 0 true 1 (BitVec.ofNat 64 va))
  | .fault page mp gpa => s.scalarFault va page mp gpa 3
  | .ok _ _ => .done () s

/-- R261: every covered line is checked before anything is reserved. -/
def forkChecks : List (Nat × Nat) → State → Got Unit
  | [], s => .done () s
  | (_, va) :: r, s => andThen (s.forkCheck va) (fun _ s => forkChecks r s)

/-- R261: the parent's view of a line at the fork cut, with its poisoned words. -/
def forkLine (va : Nat) (s : State) : Got (List Byte × List Nat) :=
  let b := s.cur.blk
  let a := BitVec.ofNat 64 va
  let answer (r : Rem) (s : State) : Got (List Byte × List Nat) :=
    match r with
    | .wait t => .wait (.remote 0) t
    | .err _ => .trap (memCause 8 0 0 true 1 a)
    | .ok bs bad => .done (bs, if bad then List.range 8 else []) s
  match s.asked s.whoMe 1 va 64 with
  | some (_, r) => answer r s
  | none =>
    match s.locate b s.cur.beam 0 a false with
    | .trap c => .trap (memCause c 0 0 true 1 a)
    | .fault page mp gpa => s.scalarFault va page mp gpa 3
    | .ok l _ =>
      match l.sp with
      | .remote node => answer (s.remote s.whoMe 1 0 node l.addr 64 [] va) s
      | _ => .done (s.view b l 64, (s.memOf l.sp).badWords l.addr) s

/-- R261: the fork cut: the ancestor's lines. -/
def forkLines : List (Nat × Nat) → Memory → State → Got Memory
  | [], m, s => .done m s
  | (_, va) :: r, m, s =>
    andThen (s.forkLine va) (fun x s =>
      forkLines r (x.2.foldl (fun m i => m.hurt (va / 8 + i)) (m.put va x.1)) s)

/-- R261, R297: the TFORK waits of a tenant: (order, block, beam). -/
def forkWaits (s : State) (tenant : Nat) : List (Nat × Nat × Nat) :=
  s.blocks.flatMap (fun e =>
    if s.tenantOf e.1 = tenant && e.2.resident && !e.2.ended && e.2.halt.isNone then
      e.2.beams.filterMap (fun x => match x.2.spark with | .fork _ o _ => some (o, e.1, x.1) | _ => none)
    else [])

/-- R261: the lines that TFORKs of a tenant hold reserved while they wait for pages or a table entry. -/
def revReserved (s : State) (tenant : Nat) : Nat :=
  (s.blocks.filter (fun e => s.tenantOf e.1 = tenant && !e.2.ended)).foldl (fun n e => e.2.beams.foldl (fun n x => match x.2.spark with | .reserved k _ => n + k | _ => n) n) 0

/-- R261: free lines of a tenant's quota. -/
def revFree (s : State) (tenant : Nat) : Nat := (s.tenant tenant).revq - ((s.tenant tenant).revUsed + s.revReserved tenant)

/-- R261: does a TFORK wait behind an earlier one: those that were parked before order `o`, or all, but for the beam's own. -/
def forkAhead (s : State) (b j : Nat) (o : Option Nat) : Bool :=
  (s.forkWaits (s.tenantOf b)).any (fun w => !(w.2.1 = b && w.2.2 = j) && (match o with | some o => w.1 < o | none => true))

/-- R261: MEM.REV_STORE. -/
def revStoreCause (s : State) (tenant need : Nat) : Cause := { grp := 1, code := 9, d1 := BitVec.ofNat 32 (s.revFree tenant), d2 := BitVec.ofNat 32 need }

/-- R261: creates the child, its revision holding the ancestor. -/
def forkTask (a : W64) (lr : Launch) (es : List RevEnt) (anc : Memory) (need : Nat) (pages : List Nat) (s : State) : Nat × State :=
  let p := (s.block s.cur.blk).task
  let t := s.task p
  let d := State.dieOf (s.coreOf s.cur.blk)
  let pv := (s.bindOf p lr).getD (t.prog, t.ver)
  let (id, s) := s.fresh
  let kid : Task := { home := d, ctx := t.ctx, tenant := t.tenant, lr := lr, addr := a, prog := pv.1, ver := pv.2, depth := min (t.depth + 1) 255, forked := true, parent := p, dies := 2 ^ d, rev := some { ents := es, anc := anc, mine := anc, need := need, pages := pages } }
  let s := { s with tasks := s.tasks.put id kid }
  let s := (s.setTask p (fun k => { k with kids := k.kids ++ [id] })).setTenant t.tenant (fun x => { x with revUsed := x.revUsed + need })
  (id, (s.tapBeam s.cur.blk s.cur.beam 0x28 (BitVec.ofNat 32 (need / 2)) 0 0 0).makeReady id)

/-- R261: with the lines reserved, a TFORK waits for pages of the clean pool and a table entry, both without a limit, and takes the fork cut
(log entry 39, DESIGN CHOICE). -/
def forkNow (d : BitVec 5) (a : W64) (r : TaskRead) (s : State) : State :=
  let need := 2 * (coveredLines r.ents).length
  let die := dieOf (s.coreOf s.cur.blk)
  let key := 2 ^ 40 + 64 * s.cur.blk + s.cur.beam
  let pages := (64 * need + 65535) / 65536
  let stay (s : State) : State := s.park (.reserved need (match s.me.spark with | .reserved _ p => p | _ => none))
  if !s.tableFree die then stay s
  else if (s.allocFor key die pages).isNone then stay (s.waitFor key die)
  else
    match forkLines (coveredLines r.ents) {} s with
    | .trap c => s.launchTrap c
    | .kill t => t
    | .wait p t => t.park (.reserved need (match p with | .fault page _ => some page | _ => none))
    | .done anc t =>
      t.stillBinds r.lr (fun t =>
        match t.allocFor key die pages with
        | none => stay t
        | some (ps, t) =>
          let (id, t) := t.forkTask a r.lr r.ents anc need ps
          (t.ws d (BitVec.ofNat 64 id)).launchDone)

/-- R261, R297: the reservation: the quota in parking order, at once or within the time, after which a TFORK traps if its lines are not free. -/
def forkReserve (d : BitVec 5) (a : W64) (r : TaskRead) (s : State) : State :=
  let tn := s.tenantOf s.cur.blk
  let need := 2 * (coveredLines r.ents).length
  let mine := match s.me.spark with | .fork t o _ => some (t, o) | _ => none
  if (match s.me.spark with | .reserved _ _ => true | _ => false) || (need ≤ s.revFree tn && !s.forkAhead s.cur.blk s.cur.beam (mine.map (·.2))) then s.forkNow d a r
  else
    match mine with
    | some (t, o) => if s.now ≥ t + 100000 && s.revFree tn < need then s.launchTrap (s.revStoreCause tn need) else s.park (.fork t o need)
    | none =>
      let (o, s) := s.fresh
      (s.park (.fork s.now o need)).tapBeam s.cur.blk s.cur.beam 0x2B (BitVec.ofNat 32 need) 0 0 0

/-- R261: has a TFORK passed the checks of its lines already. -/
def forkParked (x : Beam) : Bool := match x.spark with | .fork _ _ _ | .reserved _ _ => true | _ => false

end State

/-- R261 TFORK. -/
def execTfork (d a : BitVec 5) (s : State) : Out :=
  .next (s.unmasked 0x31 1 (fun s => s.notMirrored 0x31 true (fun s => s.notInHandler 0x31 (fun s => s.afterRegions (fun s =>
    (State.andThen (s.launchOnce (s.rs a) true) (fun r t => State.andThen (if State.forkParked t.me then .done () t else State.forkChecks (coveredLines r.ents) t) (fun _ t => .done r t))).finish s
      (fun r t => t.forkReserve d (t.rs a) r))))))

/-- R261 REV_STORE_TIMEOUT: 100,000 ref ticks have passed in the wait, and the lines are not free. -/
def execRevStoreTimeout (blk beam : Nat) (s : State) : Out :=
  .next (if s.onCore blk && (s.block blk).halt.isNone && !(s.beamAt blk beam).exited then
      match (s.beamAt blk beam).spark with
      | .fork t _ need => if t + 100000 ≤ s.now && s.revFree (s.tenantOf blk) < need then ((s.forget (.scalar blk beam)).takeTrap blk beam (s.revStoreCause (s.tenantOf blk) need) none) else s
      | _ => s
    else s)

namespace State

/-! ### TJOIN -/

/-- R262: the eight count stores. -/
def storeCounts (a : W64) : List W32 → State → Got Unit
  | [], s => .done () s
  | n :: r, s => andThen (s.sWriteAs 3 1 2 0 (toBytes 4 n.toNat) a 4 (fun _ => toBytes 4 n.toNat)) (fun _ s => storeCounts (a + 4) r s)

/-- R262: after the merge: the counts are stored, then the TJOIN returns; a fault parks it with the merge kept. -/
def joinStores (a : W64) (counts : List W32) (s : State) : State :=
  if a = 0 then s.sDone
  else
    match storeCounts a counts s with
    | .done _ t => t.sDone
    | .trap c => ((s.forget s.whoMe).park (.stores counts none)).trapMe c
    | .wait p t => t.park (.stores counts (match p with | .fault pg _ => some pg | _ => none))
    | .kill t => t

end State

/-- R262 TJOIN. -/
def execTjoin (a b : BitVec 5) (s : State) : Out :=
  .next (s.unmasked 0x32 1 (fun s => s.notMirrored 0x32 true (fun s => s.notInHandler 0x32 (fun s => s.afterRegions (fun s =>
    let n := s.rs b
    match s.me.spark with
    | .stores counts _ => s.joinStores n counts
    | _ =>
      match (if n = 0 then none else s.accessCause s.cur.blk s.cur.beam ((List.range 8).map (fun e => (0, n + BitVec.ofNat 64 (4 * e)))) 4 1 true) with
      | some c => s.trapMe c
      | none =>
        let t := (s.block s.cur.blk).task
        let h := (s.rs a).toNat
        if !((s.task t).kids.contains h) || (s.task h).joined then s.joinStores n (List.replicate 8 (BitVec.allOnes 32))
        else if !(s.task h).ended || s.joinBusy h then s.park .join
        else
          let lines := match (s.task h).rev with | some r => (coveredLines r.ents).length | none => 0
          match (s.setTask h (fun k => { k with rev := k.rev.map (fun r => { r with joiner := some (s.cur.blk, s.cur.beam) }) })).joinKid h t with
          | (none, u) => u.park .join
          | (some counts, u) => (u.tapBeam u.cur.blk u.cur.beam 0x29 (BitVec.ofNat 32 lines) (BitVec.ofNat 32 counts.sum) 0 0).joinStores n (counts.map (BitVec.ofNat 32)))))))

/-- R257 TRIGGER. -/
def execTrigger (s : State) : Out :=
  .next (s.notMirrored 0x33 true (fun s => s.notInHandler 0x33 (fun s => s.afterRegions (fun s =>
    (if s.myBlock.trig then s
      else s.triggerBlock s.cur.blk).advance))))

/-- R257, R219 TEXIT: the beam ends; a handler's ends the block. -/
def execTexit (s : State) : Out :=
  .next (if s.me.inHandler then s.setMyBlock (fun k => { k with halt := k.halt.map (fun h => { h with stage := .ending, since := s.now }) })
    else s.afterRegions (fun s => (s.endBeam s.cur.blk s.cur.beam).forgetBeam s.cur.blk s.cur.beam))

/-- R257, R222 TYIELD. -/
def execTyield (s : State) : Out :=
  .next (s.notInHandler 0x35 (fun s => if s.me.preq.getLsbD 0 then s.afterRegions (fun s => s.park .yield) else s.advance))

/-- R263 TASK_END: the next implicit join of a task whose blocks have all retired, and then its end. -/
def execTaskEnd (task : Nat) (s : State) : Out :=
  .next (match s.tasks.find task with
    | none => s
    | some t =>
      if t.ended || t.retired < t.lr.blocks then s
      else
        match t.kids.find? (fun k => !(s.task k).joined) with
        | none => s.endTask task
        | some k =>
          if !(s.task k).ended then s
          else (s.joinKid k task).2)

/-- R256 DEFERRED_CREDIT: a deferred trigger adds its credit once an entry is free. -/
def execDeferredCredit (die : Nat) (s : State) : Out :=
  .next (match (s.die die).deferred with
    | [] => s
    | (tn, ctx, a) :: r => if s.tableFree die || s.credits.any (fun c => c.tenant = tn && c.addr = a) || s.tasks.any (fun e => e.2.tenant = tn && e.2.addr = a && 0 < e.2.count)
        then (s.setDie die (fun x => { x with deferred := r })).fireEntry die tn ctx a else s)

end Sys2Proof.Machine
end

