-- ==== Sys2Proof/Machine/Mirror.lean ====
section
/-! DEFINITION. Mirrored blocks (R238 to R246): signatures, commit points, checkpoints, mismatches and agreement on traps;
block barriers complete here (R183). -/

namespace Sys2Proof.Machine

/-- R241: the block signature: each beam's scalar signature and its 32 lane signatures, then those of the four queues. -/
def Block.signature (k : Block) : W64 :=
  let beams := k.beams.flatMap (fun e => e.2.sig :: (List.range 32).map (fun i => e.2.lsig.get i 0))
  let queues := match k.mirror with | some m => (List.range 4).map (fun q => m.qsig.get q 0) | none => []
  crc64 0 ((beams ++ queues).flatMap (fun x => toBytes 8 x.toNat))

namespace State

/-- R238: the partner of a block. -/
def partnerOf (s : State) (b : Nat) : Nat := match (s.block b).mirror with | some m => m.partner | none => b
/-- The primary and the mirror of a pair. -/
def primaryOf (s : State) (b : Nat) : Nat := if isPrimary (s.block b) then b else s.partnerOf b

/-- R242: a block at a commit point: every live beam has arrived, or none is live, and every entry has completed. -/
def atCommit (s : State) (b : Nat) : Bool :=
  let live := (s.block b).beams.filter (fun e => !e.2.exited)
  s.onCore b && (s.block b).halt.isNone && live.all (fun e => e.2.spark == .bar 16) && s.blockIdle b

/-- The live tiles of a block and their words, by 1024 tile + word: in the area, or spilled. -/
def liveTiles (s : State) (b : Nat) : List Nat × Tab W32 :=
  let k := s.block b
  let c := s.core k.core
  if c.accown = some (s.ctxOf b) then
    let ts := (List.range (4 * k.accg)).filter (fun v => c.acclive.contains (s.tileOf b v))
    (ts, ts.foldl (fun t v => (List.range 1024).foldl (fun t i => t.put (1024 * v + i) (c.acc.get (1024 * s.tileOf b v + i) 0)) t) [])
  else (k.img.spilled, k.img.spill)

/-- R242: writes a checkpoint of a block: its state, its core's planes, the fusion that it leads, and its live tiles. -/
def checkpoint (b : Nat) (s : State) : State :=
  let k := s.block b
  let c := s.core k.core
  let (ts, words) := s.liveTiles b
  { s with ckpts := s.ckpts.put b { k with img := { active := c.active, shadow := c.shadow, fuse := if c.lead ≠ 0 ∧ c.leadBlk = b then c.lead else 0, spilled := ts, spill := words } } }

/-- R234, R244: the fusion of a checkpoint takes effect again, before any entry of the block. -/
def refuse (b mask : Nat) (s : State) : State :=
  if mask = 0 then s
  else
    let (n, s) := s.fresh
    s.setCore (s.coreOf b) (fun k => { k with quad := k.quad ++ [{ kind := .mfuse, id := n, blk := b, beam := ((s.block b).liveBeams[0]?).getD 0, mask := mask }] })

/-- R244: restores a block from its latest checkpoint: its entries and its gate are discarded. The watches of a checkpoint have
held the hits since (R164, log entry 40, DEDUCED). -/
def restoreCkpt (b : Nat) (s : State) : State :=
  let k := s.block b
  let ck := s.ckpts.get b k
  let c := k.core
  let s := s.dropEntries b
  let s := if (s.core c).lead ≠ 0 && (s.core c).leadBlk = b then s.endFusion c else s
  let s := s.setCore c (fun x => { x with boPend := x.boPend.filter (fun u => u.blk != b), active := ck.img.active, shadow := ck.img.shadow })
  let s := s.forgetBlock b
  let beam (j : Nat) (x : Beam) : Beam :=
    let y := k.beams.get j default
    { x with part := y.part, bslot := y.bslot, preq := y.preq, sig := 0, lsig := [] }
  let owner := (s.core c).accown = some (s.ctxOf b)
  let was := k.beams.flatMap (fun e => e.2.watch)
  let s := s.setBlock b (fun _ => { ck with core := c, seq := k.seq, resident := true, accBase := k.accBase, halt := none, causes := [], heldSe := [], heldQuad := none, mirror := k.mirror.map (fun m => { m with gate := [], qsig := [] }), img := (if owner then {} else { spilled := ck.img.spilled, spill := ck.img.spill }), beams := ck.beams.mapV beam })
  let s := (s.unwatch was).refuse b ck.img.fuse
  let s := ck.beams.foldl (fun s e => s.rewatch b e.1) s
  if owner then
    let mine := (List.range (4 * k.accg)).map (fun v => s.tileOf b v)
    s.setCore c (fun x => { x with
      acclive := x.acclive.filter (fun v => !mine.contains v) ++ ck.img.spilled.map (fun v => s.tileOf b v)
      acc := (List.range (4 * k.accg)).foldl (fun t v => (List.range 1024).foldl (fun t i => t.put (1024 * s.tileOf b v + i) (ck.img.spill.get (1024 * v + i) 0)) t) x.acc })
  else s

/-- R244, R218: HWERR.MIRROR in the lowest beam of both blocks of a pair. -/
def raiseMirror (b bytes : Nat) (s : State) : State :=
  [s.primaryOf b, s.partnerOf (s.primaryOf b)].foldl (fun s x => s.takeTrap x (s.firstBeam x) { grp := 8, code := 3, d1 := BitVec.ofNat 32 bytes } none) s

/-- R244: the signatures differ: both gates go and both blocks are restored; the second time in one interval it raises
HWERR.MIRROR. -/
def mismatch (b : Nat) (s : State) : State :=
  let p := s.primaryOf b
  let m := s.partnerOf p
  let held := match (s.block p).mirror with | some x => 8 * x.gate.length | none => 0
  let again := match (s.block p).mirror with | some x => x.rerun | none => false
  let s := (s.restoreCkpt p).restoreCkpt m
  let count (s : State) (x : Nat) : State := s.setBlock x (fun k => { k with mirror := k.mirror.map (fun y => { y with mism := y.mism + 1, rerun := !again }) })
  let s := count (count s p) m
  let n := match (s.block p).mirror with | some x => min x.mism 255 | none => 0
  let s := s.postCtx (s.ctxOf p) 9 (toBytes 2 (s.coreOf p) ++ toBytes 2 (s.block p).index ++ toBytes 1 n ++ toBytes 11 0)
  let s := s.tapBeam p (s.firstBeam p) 0x3F (BitVec.ofNat 32 (s.firstBeam p)) (BitVec.ofNat 32 n) 0 0
  if again then s.raiseMirror p held else s

/-- R243: the gated units that a block performs at a commit: the primary its global ones, each its own group's scratch. -/
def released (s : State) (b : Nat) : List GateUnit :=
  match (s.block b).mirror with
  | some m => m.gate.filter (fun u => match u.loc.sp with | .scratch _ => true | _ => m.primary)
  | none => []

/-- R274: the commit of a block, as a tenant's `parked` list names it. -/
def commitWriter (b : Nat) : Nat × Nat × Nat := (2 ^ 32 + 2, b, 0)

/-- R243, R272: performs the stores of one unit here; it waits where its page needs room in a full dirty log (R274). -/
def releaseUnit (b : Nat) (u : GateUnit) (s : State) : Except State State :=
  match u.loc.sp with
  | .remote _ => .ok s
  | _ =>
    if s.dirtyFull u.page (some (commitWriter b)) then .error (s.parkFull u.page (some (commitWriter b)))
    else .ok ((unitRuns u.data).foldl (fun s r => s.store b u.agent { u.loc with addr := u.loc.addr + r.1 } u.page r.2) s)

/-- R243, R274: releases units one by one: each leaves the gate as it is performed, and those whose page finds the dirty log full stay.
The answer is whether all are performed. -/
def releaseUnits (b : Nat) (us : List GateUnit) (s : State) : Bool × State :=
  us.foldl (fun r u =>
    match r.2.releaseUnit b u with
    | .ok t => (r.1, t.setBlock b (fun k => { k with mirror := k.mirror.map (fun m => { m with gate := m.gate.filter (fun v => v.loc != u.loc) }) }))
    | .error t => (false, t)) (true, s)

/-- R355: the requests of the units homed on other packages: is every one answered, and the state with all of them sent. -/
def releaseRemote (b : Nat) (us : List GateUnit) (s : State) : Bool × State :=
  us.foldl (fun r u =>
    match u.loc.sp with
    | .remote node => (unitRuns u.data).foldl (fun r x =>
        match r.2.remoteStore (.commit b) 2 0 node (u.loc.addr + x.1) x.2.length x.2 u.page u.agent (r.2.cidOf (r.2.ctxOf b)) (some (commitWriter b)) with
        | .wait t => (false, t)
        | _ => r) r
    | _ => r) (true, s)

/-- R242: the effect of a commit whose signatures agree. -/
def commitPair (b : Nat) (s : State) : State :=
  let p := s.primaryOf b
  let m := s.partnerOf p
  let (ready, t) := s.releaseRemote p (s.released p)
  if !ready then t
  else
    let (ok, s) := releaseUnits p (s.released p) s
    let (ok', s) := releaseUnits m (s.released m) s
    if !ok || !ok' then s
    else
      let s := ((s.forget (.commit p)).unpark (commitWriter p)).unpark (commitWriter m)
      let clear (s : State) (x : Nat) : State :=
        ((s.setBlock x (fun k => { k with mirror := k.mirror.map (fun y => { y with gate := [], rerun := false, qsig := [] }), beams := k.beams.mapV (fun _ z => { z with sig := 0, lsig := [] }) })).barRelease x 16).checkpoint x
      clear (clear s p) m

/-- R242: both blocks of a pair stand at a commit point. -/
def commitNow (b : Nat) (s : State) : State :=
  let m := s.partnerOf b
  if s.atCommit b && s.atCommit m then
    if (s.block b).signature = (s.block m).signature then s.commitPair b else s.mismatch b
  else s

/-! ### Agreement on traps -/

/-- R245: does a block's stop agree with its partner's: beam, `tcg`, details and positions. -/
def sameTrap (s : State) (b m : Nat) : Bool :=
  match (s.block b).halt, (s.block m).halt with
  | some h, some g =>
    let x := s.beamAt b h.beam
    let y := s.beamAt m g.beam
    h.beam = g.beam && x.tcg = y.tcg && x.tdr0 = y.tdr0 && x.tdr1 = y.tdr1 && x.tdr2 = y.tdr2 && x.tpc = y.tpc && x.tlpc = y.tlpc
  | _, _ => false

/-- R215 step 3 in a mirrored block: the positions are recorded, and the block waits for its partner. -/
def haltPartner (b : Nat) (s : State) : State :=
  match (s.block b).halt with
  | some h => if h.stage = .signalled || h.stage = .stopped then (s.haltDone b).setBlock b (fun k => { k with halt := k.halt.map (fun g => { g with stage := .partner }) }) else s
  | none => s

/-- Has a block a trap that waits to be delivered, or a handler's TEXIT. -/
def stopped (s : State) (b : Nat) : Bool :=
  match (s.block b).halt with
  | some h => h.cause.isSome && (h.stage = .signalled || h.stage = .partner || h.stage = .ending || h.stage = .stopped)
  | none => false

/-- R244, R245: the trap of a block is delivered: at once, or with the same trap of its partner; a gate that was full first
restores both blocks. -/
def deliver (b : Nat) (k : State → State) (s : State) : State :=
  match (s.block b).mirror with
  | none => k s
  | some m =>
    let full := (match (s.block b).halt with | some h => h.cause == some gateCause | none => false) || (s.block b).causes.any (fun e => e.2 == gateCause)
    if full then ((s.restoreCkpt b).restoreCkpt m.partner).raiseMirror b 65536
    else if (s.block m.partner).ended then k s
    else
      let s := s.haltPartner b
      if s.stopped m.partner then
        let s := s.haltPartner m.partner
        if s.sameTrap b m.partner then k s else s.mismatch b
      else if s.atCommit m.partner then s.mismatch b
      else s

/-- The blocks to which a trap of `b` is delivered. -/
def pairOf (s : State) (b : Nat) : List Nat :=
  match (s.block b).mirror with
  | some m => if (s.block m.partner).ended then [b] else [b, m.partner]
  | none => [b]

end State

/-- R242 MCOMMIT. -/
def execMcommit (s : State) : Out :=
  .next (s.unmasked 0x27 0 (fun s => s.notInHandler 0x27 (fun s => s.afterRegions (fun s =>
    if s.myBlock.mirror.isSome then s.park (.bar 16) else s.advance))))

/-- R183 BAR_COMPLETE: barrier `k` below 16 completes and resets; 16 is the commit point of a mirrored block (R242). -/
def execBarComplete (blk k : Nat) (s : State) : Out :=
  .next (
    if s.onCore blk && (s.block blk).halt.isNone then
      if k = 16 then (if s.barFull blk 16 && (s.block blk).mirror.isSome then s.commitNow blk else s)
      else if k < 16 && s.barFull blk k then (s.barRelease blk k).tapClk9 blk (s.firstBeam blk) 0x14 (BitVec.ofNat 32 k)
      else s
    else s)

/-- R245 MIRROR_TRAP_TIMEOUT: the partner has not trapped 1 ms after the trap. -/
def execMirrorTrapTimeout (blk : Nat) (s : State) : Out :=
  .next (match (s.block blk).halt with
    | some h => if s.onCore blk && (s.block blk).mirror.isSome && h.cause.isSome && (h.stage = .partner || h.stage = .ending) && h.since + 100000 ≤ s.now && !s.stopped (s.partnerOf blk)
        then s.mismatch blk else s
    | none => s)

/-- R41, R18, R234: may a block whose beams have ended retire: every entry has completed, no access of another block's word to its scratch is
still to be performed, and a fusion neither holds the block nor waits for entries of its quadrant. -/
def State.mayRetire (s : State) (b : Nat) : Bool :=
  (s.block b).halt.isNone && (s.block b).liveBeams.isEmpty && s.blockIdle b && !s.slaved b && !s.leadBusy b && !s.inFlightTo b

/-- R41, R242 BLOCK_RETIRE: a block that may retire does; a mirrored block's last exit is a commit point, and it retires with its partner. A held clear of a fragment record does not delay it, and
goes with the block (log entry 26, DESIGN CHOICE). -/
def execBlockRetire (blk : Nat) (s : State) : Out :=
  .next (
    if s.onCore blk && s.mayRetire blk then
      match (s.block blk).mirror with
      | none => s.retireBlock blk false
      | some m =>
        let t := s.commitNow blk
        if t.mayRetire blk && t.mayRetire m.partner && s.atCommit m.partner && (s.block blk).signature = (s.block m.partner).signature && (t.released (t.primaryOf blk)).isEmpty
        then (t.retireBlock blk false).retireBlock m.partner false
        else t
    else s)

end Sys2Proof.Machine
end

