-- ==== Sys2Proof/Machine/Ladder.lean ====
section
/-! DEFINITION. The pre-emption ladder (R222 to R225), calendars (R320), in-field tests (R227) and withdrawn cores (R331). -/

namespace Sys2Proof.Machine
namespace State

/-- R222: a block at a boundary: every beam that has not exited is parked at a TYIELD. -/
def atBoundary (s : State) (b : Nat) : Bool :=
  (s.block b).halt.isNone && (s.block b).beams.all (fun e => e.2.exited || e.2.spark == .yield)

/-- The ladder family's taps (R284). -/
def tapLadder (code : Nat) (l : Ladder) (s : State) : State :=
  l.blocks.foldl (fun s b => s.tapBeam b 0 code (BitVec.ofNat 32 (s.now - l.knock)) (BitVec.ofNat 32 ((s.block b).beams.map (fun e => e.2.skid.toNat % 16 + e.2.skid.toNat / 16 % 16)).sum) 0 0) s

/-- The blocks of a list that stand on their cores. -/
def standing (s : State) (bs : List Nat) : List Nat := bs.filter (fun b => s.onCore b)

/-- R14: the blocks of the cluster groups that have a member in a list, with their mirrors (R238). -/
def groupsOf (s : State) (bs : List Nat) : List Nat :=
  let own := s.blocksOf (fun b => bs.any (fun a => (s.block a).task = (s.block b).task && s.coreOf a / 4 = s.coreOf b / 4))
  own ++ (own.flatMap s.pairOf).filter (fun b => !own.contains b) |>.eraseDups

/-- R222: the ladder of `key` has saved its blocks: those of a teardown end, and are never restored. -/
def saved (key : Nat) (s : State) : State :=
  let l := s.ladders.get key {}
  match l.cause with
  | .teardown _ => { l.blocks.foldl (fun s b => s.retireBlock b true) s with ladders := s.ladders.del key }
  | _ => { s with ladders := s.ladders.put key { l with step := 3, since := s.now } }

/-- R223: the whole context is killed and reset; its tasks go with no merge and no trigger, and so do the credits that they gave and the
triggers that are deferred (R257). -/
def evictContext (key : Nat) (s : State) : State :=
  let ctx := s.ladderCtx key
  let l := s.ladders.get key {}
  let bs := s.blocksOf (fun b => s.ctxOf b = ctx)
  let prim := bs.filter (fun b => isPrimary (s.block b))
  let id := match l.cause with | .rebalance i => i | .teardown i => i | _ => 0
  let s := { s.tapLadder 0x0A l with tasks := s.tasks.mapV (fun _ t => if t.ctx = ctx then { t with triggered := true } else t) }
  let s := bs.foldl (fun s b =>
    let c := s.coreOf b
    let n := (s.block b).granules
    if (s.block b).resident then (s.setCore c (fun k => { k with scrubbing := k.scrubbing + n })).setDie (dieOf c) (fun d => { d with scrubq := d.scrubq ++ [.granules c n] }) else s) s
  let s := bs.foldl (fun s b => s.retireBlock b true) s
  let s := { s with cores := s.cores.mapV (fun _ k => k.disown ctx) }
  let s := s.postCtx ctx 5 (toBytes 4 id ++ toBytes 4 prim.length ++ toBytes 8 0)
  let ts := (s.tasks.filter (fun e => e.2.ctx = ctx)).map (fun e => e.1)
  let s := ts.foldl (fun s t => s.returnRev t) (s.forgetMerges ctx)
  { s with
    tasks := Tab.mapV (s.tasks.filter (fun e => e.2.ctx ≠ ctx)) (fun _ t => { t with kids := t.kids.filter (fun k => !ts.contains k) })
    blocks := s.blocks.filter (fun e => !ts.contains e.2.task)
    credits := (s.credits.map (fun c => { c with givers := c.givers.filter (· != ctx) })).filter (fun c => !c.givers.isEmpty)
    dies := s.dies.mapV (fun _ d => { d with deferred := d.deferred.filter (fun e => e.2.1 ≠ ctx) })
    ladders := (s.ladders.del key).filter (fun e => s.ladderCtx e.1 ≠ ctx) }

/-- R274, R227: a stop request is withdrawn: `preq` clears and the beams parked at a TYIELD go on. -/
def withdraw (key : Nat) (s : State) : State :=
  let l := s.ladders.get key {}
  let s := l.blocks.foldl (fun s b =>
    let s := s.setBeams b (fun _ x => let x := { x with preq := 0 }; if x.spark == .yield && !x.exited then { x with spark := .none, spc := x.spc + 1 } else x)
    s.unquiet b) s
  { s with ladders := s.ladders.del key }

/-- R225: has a store altered the image of a saved block of a list. -/
def alteredIn (s : State) (bs : List Nat) : Bool := (s.savedOf bs).any (fun b => (s.block b).img.altered)

end State

/-- R222 KNOCK: a stop request for a context. -/
def execKnock (ctx : Nat) (cause : StopCause) (s : State) : Out :=
  .next (if (s.ctxs.find ctx).isSome then s.startLadder ctx cause else s)

/-- R222 BOUNDARY_SAVE: every targeted block is at a boundary, and they are saved there together; an in-field test saves by
IN_FIELD_TEST. -/
def execBoundarySave (ctx : Nat) (s : State) : Out :=
  .next (match s.ladders.find ctx with
    | none => s
    | some l =>
      if l.step = 1 && !(l.cause == .test) && (s.standing l.blocks).all s.atBoundary && !(s.standing l.blocks).any s.streaming then
        let (done, t) := s.saveAll (s.standing l.blocks)
        if done then t.saved ctx else t
      else s)

/-- R222, R224 SHUTTER: at grace expiry the blocks stop as in a halt with no trap; once they have stopped, and what is in flight has
ended, they are saved. -/
def execShutter (ctx : Nat) (s : State) : Out :=
  .next (match s.ladders.find ctx with
    | none => s
    | some l =>
      let bs := s.standing l.blocks
      if l.step = 1 && (match l.deadline with | some d => decide (d ≤ s.now) | none => false) then
        let s := bs.foldl (fun s b => s.quietSignal b) s
        { s with ladders := s.ladders.put ctx { l with step := 2, since := s.now } }
      else if l.step = 2 then
        let (done, t) := s.saveAll bs
        if done then (t.tapLadder 0x09 l).saved ctx else t
      else s)

/-- R222: a SHUTTER has stopped a block for 2 ms, and the block is not saved. -/
def State.overdue (s : State) (b : Nat) : Bool :=
  s.onCore b && (match (s.block b).halt with | some h => h.quiet && h.shut + 200000 ≤ s.now | none => false)

/-- R222, R223 EVICT: 2 ms after SHUTTER started, of a ladder or of the calendar, the save is not complete. -/
def execEvict (ctx : Nat) (s : State) : Out :=
  .next (
    if (match s.ladders.find ctx with | some l => l.step = 2 && l.since + 200000 ≤ s.now | none => false)
        || ((s.ctxs.find ctx).isSome && s.blocks.any (fun e => !e.2.ended && s.ctxOf e.1 = ctx && s.overdue e.1))
      then s.evictContext ctx else s)

/-- R222, R225 CONTEXT_RESTORE: the saved blocks stand again, the first group on a cluster; an altered image evicts. -/
def execContextRestore (ctx cluster : Nat) (s : State) : Out :=
  .next (match s.ladders.find ctx with
    | none => s
    | some l =>
      let x := s.ladderCtx ctx
      let own := match l.blocks with | b :: _ => s.coreOf b / 4 | [] => cluster
      if l.step = 3 && !(l.dirty && (s.tenant (s.ctxs.get x default).tenant).full) && (!(l.cause == .test) || cluster = own) then
        if s.alteredIn l.blocks then s.evictContext ctx
        else
          let (done, t) := s.restoreGroups x cluster l.blocks
          if done then { t.tapLadder 0x0B l with ladders := t.ladders.del ctx } else t
      else s)

namespace State

/-- R320: is a block's core its tenant's in the present slot. -/
def inSlot (s : State) (b : Nat) : Bool :=
  let c := s.coreOf b
  (s.tenant (s.tenantOf b)).hard.testBit c || s.slotOwner c = s.tenantOf b

/-- R320: the blocks that a calendar's SHUTTER stopped, whose slot has come again before they were saved, go on. -/
def unquietInSlot (s : State) : State :=
  (s.blocksOf (fun b => s.onCore b && (match (s.block b).halt with | some h => h.quiet | none => false)
    && (match s.ladderOf b with | some l => l.step ≠ 2 | none => true) && (s.groupsOf [b]).all s.inSlot)).foldl (fun s b => s.unquiet b) s

/-- R238: the saved blocks that a group is restored with: its own and its mirrors. -/
def withMirrors (s : State) (g : List Nat) : List Nat := g ++ (g.flatMap s.pairOf).filter (fun x => !g.contains x && !(s.block x).resident)

/-- R230: does a restored block take the accumulator area: its image holds quadrant entries or a fusion. -/
def wantsArea (s : State) (b : Nat) : Bool := !(s.block b).img.quad.isEmpty || (s.block b).img.fuse != 0

/-- R225, R230, R238: the saved groups of a cluster whose slot it is stand again, a mirrored group with its partner's; what all of them had in the
queues goes back in its order (R194). Of two contexts that take the area, one comes a turn later. -/
def slotRestore (cl : Nat) (s : State) : State :=
  let back := s.blocksOf (fun b => s.coreOf b / 4 = cl && !(s.block b).resident && (s.ladderOf b).isNone && s.inSlot b)
  match ((s.savedGroups back).find? (fun g => s.alteredIn (s.withMirrors g))).bind (·[0]?) with
  | some b => s.evictContext (s.ctxOf b)
  | none =>
    let r := (s.savedGroups back).foldl (fun (r : List Nat × State) g =>
      let s := r.2
      match g with
      | [] => r
      | b :: _ =>
        let ctx := s.ctxOf b
        let all := s.withMirrors g
        if (s.block b).resident || !s.groupFits ctx cl g || (all.any s.wantsArea && r.1.any (fun x => s.ctxOf x ≠ ctx && s.wantsArea x)) then r
        else
          match s.standGroups ctx cl all with
          | (some t, _) => (r.1 ++ s.savedOf all, t.tapLadder 0x0B { blocks := all, knock := t.now })
          | (none, t) => (r.1, t)) ([], s)
    r.2.resumeBlocks r.1

end State

/-- R231, R238, R320 CALENDAR_SLOT_BOUNDARY: on the shared cores of the core's cluster, once no exchange runs there, the blocks whose slot has
ended are stopped as by a SHUTTER; once what is in flight has ended they are saved, the cores change their owner, and the saved groups of the
new owner stand again as they find room. -/
def execCalendarSlotBoundary (core : Nat) (s : State) : Out :=
  .next (
    let cs := ((List.range 4).map (fun i => core / 4 * 4 + i)).filter (fun c => s.tenants.any (fun e => e.2.shared.testBit c))
    let out := s.standing (s.groupsOf (s.blocksOf (fun b => cs.contains (s.coreOf b) && s.onCore b && !s.inSlot b)))
    let s := s.unquietInSlot
    if out.any (fun b => (s.core (s.coreOf b)).accReq.isSome) then s
    else
    let (done, t) := (out.foldl (fun s b => s.quietSignal b) s).saveAll out
    if !done then t
    else
      let t := if out.isEmpty then t else t.tapLadder 0x09 { blocks := out, knock := s.now }
      let t := (cs.filter (fun c => t.slotOwner c ≠ (t.core c).owner)).foldl (fun t c => t.setCore c (fun k => { k with owner := t.slotOwner c })) t
      t.slotRestore (core / 4))

namespace State

/-- R227, R310: no ladder stops a block, or an in-field test's only, from which a stronger one takes it. -/
def unladdered (s : State) (b : Nat) : Bool := match s.ladderOf b with | some l => l.cause == .test | none => true

/-- R319, R320: the saved blocks that no ladder restores, and that may not stand where they did: each gets one, for a rebalance or a
migration. -/
def castOff (cause : StopCause) (lost : Nat → Bool) (s : State) : State :=
  let bs := (s.groupsOf (s.blocksOf (fun b => !(s.block b).resident && s.unladdered b && lost b))).filter s.unladdered
  ((bs.map s.ctxOf).eraseDups).foldl (fun s x => s.startLadderOn x cause false (bs.filter (fun b => s.ctxOf b = x))) s

/-- The blocks that stand on a cluster, and their contexts. -/
def onCluster (s : State) (cl : Nat) : List Nat := s.blocksOf (fun b => s.onCore b && s.coreOf b / 4 = cl)
def ctxsOf (s : State) (bs : List Nat) : List Nat := (bs.map s.ctxOf).eraseDups

/-- R227, R238: the blocks that an in-field test saves: those of the cluster, with their groups and their mirrors. -/
def testBlocks (s : State) (cl : Nat) : List Nat := s.standing (s.groupsOf (s.onCluster cl))

/-- R227: the KNOCK of an in-field test, on every block of the cluster, and on the partner of a mirrored one (R238). -/
def knockTest (cl : Nat) (s : State) : State :=
  let bs := (s.testBlocks cl).filter (fun b => (s.ladderOf b).isNone)
  (s.ctxsOf bs).foldl (fun s x => s.startLadderOn (testKey cl x) .test false (bs.filter (fun b => s.ctxOf b = x))) s

/-- R227: the test cannot start: a block has pre-emption disabled, or its grace has passed without a yield. -/
def testBlocked (s : State) (cl : Nat) (f : FieldTest) : Bool :=
  (s.testBlocks cl).any (fun b =>
    let x := s.ctxs.get (s.ctxOf b) default
    x.nopre || (!s.atBoundary b && f.since + 100 * (s.tenant x.tenant).grace ≤ s.now))

/-- R248, R331: posts WITHDRAWN for a cluster. -/
def postWithdrawn (cl : Nat) (s : State) : State := s.postHv 21 (toBytes 2 cl ++ toBytes 14 0)

end State

/-- R227 IN_FIELD_TEST: a test falls due on a cluster and KNOCKs its blocks; once each is at a boundary, and none has
pre-emption disabled, they are saved and the test runs. -/
def execInFieldTest (cluster : Nat) (s : State) : Out :=
  .next (match s.tests.find cluster with
    | none => { s with tests := s.tests.put cluster { since := s.now } }.knockTest cluster
    | some f =>
      if f.running then s
      else
        match f.next with
        | some t => if t ≤ s.now then { s with tests := s.tests.put cluster { f with since := s.now, next := none } }.knockTest cluster else s
        | none =>
          let bs := s.testBlocks cluster
          if bs.all s.atBoundary && !bs.any s.streaming && bs.all (fun b => f.waiting || !(s.ctxs.get (s.ctxOf b) default).nopre) then
            let xs := s.ctxsOf bs
            let (done, s) := s.saveAll bs
            if !done then s
            else
            let s := xs.foldl (fun s x => { s with ladders := s.ladders.upd (State.testKey cluster x) (fun l => { l with step := 3, since := s.now }) }) s
            { s with tests := s.tests.put cluster { f with running := true, since := s.now } }
          else s)

/-- R227 TEST_DEFERRED: the test defers and its KNOCK is repeated after 100 ms; the third deferral posts a record and leaves
the KNOCK pending with no timer. -/
def execTestDeferred (cluster : Nat) (s : State) : Out :=
  .next (match s.tests.find cluster with
    | none => s
    | some f =>
      if f.running || f.next.isSome || f.waiting || !s.testBlocked cluster f then s
      else
        let n := f.deferrals + 1
        let xs := s.ctxsOf (s.testBlocks cluster)
        if n = 3 then
          let s := xs.foldl (fun s x => s.postCtx x 8 (toBytes 2 cluster ++ toBytes 1 n ++ toBytes 13 0)) s
          { s with tests := s.tests.put cluster { f with deferrals := n, waiting := true } }
        else
          let s := xs.foldl (fun s x => if (s.ladders.find (State.testKey cluster x)).isSome then s.withdraw (State.testKey cluster x) else s) s
          { s with tests := s.tests.put cluster { f with deferrals := n, next := some (s.now + 10000000) } })

/-- R227, R248 IN_FIELD_TEST_END: the contexts stand on their cluster again; a cluster that failed is withdrawn, and its
contexts move as a migration, those that the calendar had saved with them. -/
def execInFieldTestEnd (cluster : Nat) (passed : Bool) (s : State) : Out :=
  .next (match s.tests.find cluster with
    | none => s
    | some f =>
      if !f.running then s
      else
        let s := { s with tests := s.tests.del cluster }
        let mine := (s.ladders.filter (fun e => e.1 / 2 ^ 32 = cluster + 1)).map (fun e => e.1)
        if passed then
          mine.foldl (fun s x =>
            let l := s.ladders.get x {}
            if s.alteredIn l.blocks then s.evictContext x
            else
              let (done, t) := s.restoreGroups (s.ladderCtx x) cluster l.blocks
              if done then { t.tapLadder 0x0B l with ladders := t.ladders.del x } else t) s
        else
          let s := (List.range 4).foldl (fun s i => s.setCore (4 * cluster + i) (fun k => { k with withdrawn := true })) s
          let s := mine.foldl (fun s x => { s with ladders := s.ladders.upd x (fun l => { l with cause := .migration }) }) s
          (s.castOff .migration (fun b => s.coreOf b / 4 = cluster)).postWithdrawn cluster)

/-- R331, R322 THROTTLE: a core takes a step of its clock (log entry 17, DESIGN CHOICE). -/
def execThrottle (core step : Nat) (s : State) : Out := .next (s.setCore core (fun k => { k with throttle := step }))

/-- R331 CRITICAL_TRIP: the core is withdrawn, its blocks move as a migration, and one record is posted. -/
def execCriticalTrip (core : Nat) (s : State) : Out :=
  .next (
    let s := s.setCore core (fun k => { k with withdrawn := true })
    let bs := s.groupsOf (s.blocksOf (fun b => s.coreOf b = core))
    let s := (s.ctxsOf bs).foldl (fun s x => s.startLadderOn x .migration false (bs.filter (fun b => s.ctxOf b = x))) s
    s.postWithdrawn (core / 4))

end Sys2Proof.Machine
end

