-- ==== Sys2Proof/Machine/Seal.lean ====
section
/-! DEFINITION. SEAL: staged images, their checks, and the versions of an object (R345, R346). -/

namespace Sys2Proof.Machine

/-- R345: what the header of a staged image says: scalar and lane words; none where it breaks its rules. -/
def stagedHead (h : List Byte) : Option (Nat × Nat) :=
  let nsw := numAt h 4 4
  let nlw := numAt h 8 4
  if numAt h 0 4 = 0x4754534B && 1 ≤ nsw && nsw ≤ 1048576 && nlw ≤ 1048576 && numAt h 12 52 = 0 then some (nsw, nlw) else none

/-- R345: 8-byte reads that cover a part of `n` bytes, which begins at a multiple of 64. -/
def stagedReads (n : Nat) : Nat := (n + 7) / 8

/-- The lane word of 12 bytes of an image. -/
def laneBytes (l : List Byte) (k : Nat) : BitVec 96 := BitVec.ofNat 96 (numAt l (12 * k) 12)
/-- The code of an image's two parts. -/
def Code.ofBytes (sc lc : List Byte) (nsw nlw : Nat) : Code where
  scode := (List.range nsw).map (fun k => BitVec.ofNat 32 (numAt sc (4 * k) 4))
  lcode := (List.range nlw).map (fun k => laneBytes lc k)

/-- R346 check 2: a scalar word, and a lane word, that is illegal in itself. -/
def badScalar (w : W32) : Bool := match decodeScalar w.toNat with | .ok _ => false | .error _ => true
def badLane (w : BitVec 96) : Bool :=
  match decodeLane w.toNat with
  | .error _ => true
  | .ok lw => (lw.operandErr 320).isSome || lw.pairErr.isSome

/-- R346 check 3: SEAL, or SYSW of `trapvec`. -/
def privileged (w : W32) : Bool :=
  match decodeScalar w.toNat with
  | .ok (.seal _ _ _) => true
  | .ok (.sysw r _) => r == .trapvec
  | _ => false

/-- R346 check 4: a fixed target of a scalar word at index `i`, or of a lane word, outside the image. -/
def farScalar (c : Code) (i : Nat) (w : W32) : Bool :=
  let far (t : Int) (n : Nat) : Bool := t < 0 || n ≤ t
  match decodeScalar w.toNat with
  | .ok (.sb _ _ _ off) => far (i + off.toInt) c.scode.length
  | .ok (.sjal _ off) => far (i + off.toInt) c.scode.length
  | .ok (.lrun a k) => a = 0 && far k.toInt c.lcode.length
  | _ => false
def farLane (c : Code) (w : BitVec 96) : Bool :=
  match decodeLane w.toNat with
  | .ok lw => match lw.body with
    | .one (.lbr x) => c.lcode.length ≤ x.imm.toNat % 2 ^ 20
    | .one (.lbrk x) => c.lcode.length ≤ x.imm.toNat % 2 ^ 20
    | .one (.ljmp x) => c.lcode.length ≤ x.imm.toNat % 2 ^ 20
    | _ => false
  | .error _ => false

/-- The status of a check (R346): code, failing word, and whether it is a lane word. -/
def sealStatus (r w : Nat) (lane : Bool) : W64 := BitVec.ofNat 64 (w * 256 + (if lane then 128 else 0) + r)

/-- The first word of a part that satisfies a test. -/
def badAt {α : Type} (l : List α) (p : Nat → α → Bool) : Option Nat := (List.range l.length).find? (fun i => match l[i]? with | some w => p i w | none => false)

/-- The first failing word of a check over both parts: the scalar words, then the lane words. -/
def checkBoth (r : Nat) (c : Code) (p : Nat → W32 → Bool) (q : Nat → BitVec 96 → Bool) : Option W64 :=
  match badAt c.scode p with
  | some i => some (sealStatus r i false)
  | none => (badAt c.lcode q).map (fun i => sealStatus r i true)

namespace State

/-- R339, R346: the entries of the launch records of the object that a handle names among a tenant's programs. -/
def entriesOfHandle (s : State) (tenant : Nat) (h : W64) : List W64 :=
  match (if h.toNat < 2 ^ 32 then s.progs.find h.toNat else none) with
  | some p => if p.tenant = tenant then p.entries else []
  | none => []

/-- R346: the first failing check of an image for an object, as its status. -/
def sealFault (s : State) (tenant : Nat) (h : W64) (c : Code) : Option W64 :=
  (checkBoth 2 c (fun _ w => badScalar w) (fun _ w => badLane w)).orElse (fun _ =>
  (checkBoth 3 c (fun _ w => privileged w) (fun _ _ => false)).orElse (fun _ =>
  (checkBoth 4 c (farScalar c) (fun _ w => farLane c w)).orElse (fun _ =>
  ((badAt (s.entriesOfHandle tenant h) (fun _ e => c.scode.length ≤ e.toNat)).map (fun i => sealStatus 5 i false)).orElse (fun _ =>
    match s.progOf tenant h with
    | none => some (sealStatus 6 0 false)
    | some p => if 16 ≤ ((s.progs.get p default).versions.filter (fun e => s.retained p e.1)).length then some (sealStatus 7 0 false) else none))))

/-- R346: the new version becomes the newest; versions no longer retained are released. -/
def addVersion (p : Nat) (c : Code) (s : State) : Nat × State :=
  let g := s.progs.get p default
  let v := g.newest + 1
  let keep := g.versions.filter (fun e => s.tasks.any (fun t => t.2.prog = p && t.2.ver = e.1 && !t.2.ended))
  (v, { s with progs := s.progs.put p { g with newest := v, versions := Tab.put keep v c } })

/-- R346: reads the whole image at an address: none where the header is bad (log entry 46, DEDUCED). -/
def readStaged (a : W64) (s : State) : Got (Option Code) :=
  if a.toNat % 64 ≠ 0 then .done none s
  else
    andThen (sRange 1 a 8 s) (fun h s =>
      match stagedHead h with
      | none => .done none s
      | some (nsw, nlw) =>
        andThen (sRange 1 (a + 64) (stagedReads (4 * nsw)) s) (fun sc s =>
          andThen (sRange 1 (a + BitVec.ofNat 64 (64 + (4 * nsw + 63) / 64 * 64)) (stagedReads (12 * nlw)) s) (fun lc s =>
            .done (some (Code.ofBytes sc lc nsw nlw)) s)))

end State

/-- R346 SEAL: the status is written only after the whole check. -/
def execSeal (d a b : BitVec 5) (s : State) : Out :=
  .next (s.unmasked 0x26 5 (fun s => s.notInHandler 0x26 (fun s => s.afterRegions (fun s =>
    (s.readStaged (s.rs a)).finish s (fun img t =>
      match img with
      | none => (t.ws d (sealStatus 1 0 false)).sDone
      | some c =>
        match t.sealFault (t.tenantOf t.cur.blk) (t.rs b) c with
        | some e => (t.ws d e).sDone
        | none =>
          let (v, t) := t.addVersion (t.rs b).toNat c
          (t.ws d (BitVec.ofNat 64 (v * 2 ^ 32))).sDone)))))

end Sys2Proof.Machine
end

