-- ==== Sys2Proof/Machine/Repair.lean ====
section
/-! DEFINITION. Memory: table rebuilds (R268), the dirty log's space (R274), the patrol (R276), scrubbing (R277) and the repair
of rows (R280, R281). -/

namespace Sys2Proof.Machine
namespace State

/-- R284: the clean-up family. -/
def tapRow (code : Nat) (r : RowId) (s : State) : State :=
  s.tapDev r.die 0 0 code (BitVec.ofNat 32 r.stack) (BitVec.ofNat 32 r.row) (BitVec.ofNat 32 (s.scrubPages r.die)) 0

/-- R284: accesses to the HBM of a die, to `n` lines of 64 bytes from `line` on. -/
def tapHbm (line n : Nat) (s : State) : State :=
  let d := line / 2 ^ 32 % 4
  if s.filters.any (fun f => f.2.die = d && f.2.evtype = 0x30) then
    (List.range n).foldl (fun s i =>
      let f := s.takeFree
      f.2.tapDev d 0 0 0x30 (BitVec.ofNat 32 (dieChannel (rowOf (line + i)))) (BitVec.ofNat 32 (64 * (line + i))) (Config.tapClk f.1) 0) s
  else s

/-- R280: four corrected errors within 24 hours (of 8.64 × 10^12 ref ticks). -/
def recentErrors (s : State) (x : RowSt) : List Nat := x.errors.filter (fun t => s.now < t + 8640000000000)

/-- R277: a scrubbed page joins the clean pool. -/
def pageClean (p : Nat) (s : State) : State := s.setDie (dieOfPage p) (fun x => { x with clean := x.clean ++ [(p, 1)] })

/-- R280, R281: does a row qualify for repair: it is marked as due when a unit is poisoned, again after a repair too. -/
def qualifies (s : State) (r : RowId) : Bool :=
  let x := s.rowSt r
  x.due || 4 ≤ (s.recentErrors x).length || (!x.repaired && !((s.die r.die).hard.contains r) && !((s.die r.die).retire.contains r) && s.mem.poison.any (fun k => rowOf (k / 8) == r))

/-- R235, R248: an error in an 8-byte word of an L2 slice, by its number: corrected and counted if of a single bit, else the word is
poisoned (log entry 13, DESIGN CHOICE). -/
def l2Error (word : Nat) (single : Bool) (s : State) : State :=
  if single then s.setDie (word / 2 ^ 35 % 4) (fun d => { d with ras := d.ras + 1 }) else s.spoilAt { sp := .phys, addr := 8 * word } 8

end State

/-- R268 TABLE_REBUILD: a walk meets an error in a table: its rebuild begins with one record, and the tenant's accesses fault;
the next event of the tenant ends it (log entry 42, DESIGN CHOICE). -/
def execTableRebuild (tenant die : Nat) (s : State) : Out :=
  .next (
    let mine (m : Mapping) : Bool := m.tenant = tenant
    if s.maps.any (fun e => mine e.2 && e.2.rebuild) then { s with maps := s.maps.mapV (fun _ m => if mine m then { m with rebuild := false } else m) }
    else { s with maps := s.maps.mapV (fun _ m => if mine m then { m with rebuild := true } else m) }.postHv 19 (toBytes 1 die ++ toBytes 3 0 ++ toBytes 4 tenant ++ toBytes 8 0))

/-- R274 DIRTY_LOG_SPACE: the head word shows space: the parked writes go on, and a stop not yet saved is withdrawn. -/
def execDirtyLogSpace (tenant : Nat) (s : State) : Out :=
  .next (
    let x := s.tenant tenant
    if x.full && (x.dlTail + 2 ^ 32 - s.hostNum x.dlhead 4) % 2 ^ 32 < 2 ^ x.dllog2 then
      let keys := (s.ladders.filter (fun e => e.2.dirty && e.2.step < 3 && (s.ctxs.get (s.ladderCtx e.1) default).tenant = tenant)).map (fun e => e.1)
      keys.foldl (fun s k => s.withdraw k) (s.setTenant tenant (fun y => { y with full := false }))
    else s)

/-- R276 PATROL: a controller reads a line of its die: a corrected error is counted against its row, an uncorrectable one
poisons the unit; nothing is consumed (log entry 56, DESIGN CHOICE). -/
def execPatrol (die line : Nat) (found : EccFinding) (s : State) : Out :=
  .next (
    let k := die % 4 * 2 ^ 32 + line
    let r := State.rowOf k
    let s := s.tapHbm k 1
    match found with
    | .clean => s
    | .corrected =>
      let f := s.takeFree
      (f.2.setRow r (fun x => { x with errors := f.2.recentErrors x ++ [s.now] })).tapDev r.die 0 0 0x31 (BitVec.ofNat 32 (State.dieChannel r)) (BitVec.ofNat 32 (64 * k)) (Config.tapClk f.1) 0
    | .uncorrectable => s.spoilAt { sp := .phys, addr := 64 * k } 64)

/-- R277 SCRUB: the entry at the head of the queue: granules are zeroed, and the core may place them again (R223); a page is zeroed and read
back (each an access to its lines, R284): a pass joins the clean pool, a first failure is scrubbed once more, a second retires the page. -/
def execScrub (die : Nat) (passed : Bool) (s : State) : Out :=
  .next (match (s.die die).scrubq with
    | [] => s
    | .granules c n :: rest => (s.setDie die (fun x => { x with scrubq := rest })).setCore c (fun k => { k with scrubbing := k.scrubbing - n })
    | .page p n :: rest =>
      let r := State.rowOf (1024 * p)
      let s := { s with mem := s.mem.clear Space.phys.eccUnit (65536 * p) 65536 }.setDie die (fun x => { x with scrubq := rest })
      let s := (s.tapHbm (1024 * p) 1024).tapHbm (1024 * p) 1024
      if passed then
        let s := s.tapRow 0x34 r
        if (s.die (dieOfPage p)).retired.contains p || s.pageBad p then s.retirePage p else s.pageClean p
      else
        let s := s.tapRow 0x35 r
        if n = 0 then s.setDie die (fun x => { x with scrubq := .page p 1 :: x.scrubq })
        else (State.pageRows p).foldl (fun s r => s.setRow r (fun x => { x with due := true })) (s.retirePage p))

/-- R280, R281 SOFT_REPAIR: a qualifying row is repaired: its channel is quiesced for 200 µs while it moves to a spare row;
repaired once before, or with no spare row left, it goes on its stack's hard-repair list (log entry 44, DESIGN CHOICE). -/
def execSoftRepair (row : RowId) (s : State) : Out :=
  .next (
    let d := s.die row.die
    if d.quiesce.isSome || !s.qualifies row then s
    else
      let x := s.rowSt row
      let (f, s) := s.takeFree
      let s := s.setRow row (fun x => { x with due := false, errors := [] })
      if x.repaired || !Config.spareRow f then
        if d.hard.contains row || d.retire.contains row then s
        else if (d.hard.filter (fun r => r.stack = row.stack)).length < 1024 then
          ((s.setDie row.die (fun d => { d with hard := d.hard ++ [row] })).postRepair row 1).tapRow 0x37 row
        else (s.setDie row.die (fun d => { d with retire := d.retire ++ [row] })).postRepair row 2
      else ((s.setDie row.die (fun d => { d with quiesce := some (row, s.now + 20000) })).postRepair row 0).tapRow 0x36 row)

/-- R280 SOFT_REPAIR_END: the quiesce is over: the row stands on its spare, with its data and poison marks. -/
def execSoftRepairEnd (die : Nat) (s : State) : Out :=
  .next (match (s.die die).quiesce with
    | some (r, t) => if t ≤ s.now then (s.setDie die (fun d => { d with quiesce := none })).setRow r (fun x => { x with repaired := true }) else s
    | none => s)

end Sys2Proof.Machine
end

