-- ==== Sys2Proof/Machine/Recon.lean ====
section
/-! DEFINITION. The Reconciler: its root and areas (R298 to R300), records (R301, R302), observation (R306) and conflicts
(R307). -/

namespace Sys2Proof.Machine

/-- Are bytes `i` to `i + n - 1` all zero. -/
def zeroAt (w : List Byte) (i n : Nat) : Bool := ((w.drop i).take n).all (· == 0)

/-- Do two ranges meet. -/
def meets (a n b k : Nat) : Bool := a < b + k && b < a + n && 0 < n && 0 < k

/-! ### Records -/

/-- R301: the version, and the dependencies a record names. -/
def recVer (w : List Byte) : Nat := numAt w 0 8
def recDeps (w : List Byte) : List Nat := ([20, 24, 28, 32].map (fun i => numAt w i 4)).filter (· != 0)
/-- R314 to R316: the CONTEXT that a body names, by id; 0 for none. -/
def recCtx (w : List Byte) : Nat :=
  match recKind w with | 3 => numAt w 92 4 | 4 => numAt w 80 4 | 5 => numAt w 64 4 | _ => 0

/-- R301, R302, R311 to R318: a reserved bit of a record is not zero. -/
def recReserved (w : List Byte) : Bool :=
  let b (i : Nat) : Nat := numAt w i 1
  16 ≤ b 7 || 2 ≤ b 9 || !zeroAt w 10 2 || !zeroAt w 18 2 || !zeroAt w 36 28 ||
  (match recKind w with
    | 1 => 32 ≤ b 96 || !zeroAt w 120 8
    | 2 => 4 ≤ b 66 || !zeroAt w 67 1 || 16 ≤ b 68 || !zeroAt w 69 3 || !zeroAt w 84 172
    | 3 => 64 ≤ b 88 || !zeroAt w 89 1 || 16 ≤ b 91 || !zeroAt w 96 160
    | 4 => !zeroAt w 86 2 || 16 ≤ b 104 || !zeroAt w 105 151
    | 5 => 16 ≤ b 70 || !zeroAt w 71 185
    | 6 => 32 ≤ b 72 || !zeroAt w 73 3 || 8 ≤ b 77 || !zeroAt w 78 2 || !zeroAt w 88 168
    | 7 => 4 ≤ b 72 || !zeroAt w 73 183
    | _ => false)

/-- R369, R370: a range of package physical memory that lies in one die's allocatable HBM. -/
def physOk (pa len : Nat) : Bool := pa < 0x10000000000 && pa % 0x4000000000 + max len 1 ≤ 0x2187110000

/-- R16: a range of virtual addresses is canonical and outside the aperture windows. -/
def vaOk (va len : Nat) : Bool :=
  va + len ≤ 2 ^ 56 || (2 ^ 64 - 2 ^ 56 ≤ va && (va + len ≤ 0xFFFC * 2 ^ 48 || (0xFFFF * 2 ^ 48 ≤ va && va + len ≤ 2 ^ 64)))

/-- R302, R311 to R318: a body field outside the range of its kind's table; `hv`: the record lies in the hypervisor's area (log entry 47, DEDUCED). -/
def recRange (w : List Byte) (hv : Bool) : Bool :=
  let n (i k : Nat) : Nat := numAt w i k
  match recKind w with
  | 1 =>
    n 64 2 = 0 || n 64 2 ≠ recTenant w || (n 68 4 ≠ 0 && !(10 ≤ n 68 4 && n 68 4 ≤ 10000)) || 64 ≤ n 84 4
      || n 88 8 % 4096 ≠ 0 || !(6 ≤ n 96 1 % 32 && n 96 1 % 32 ≤ 24) || n 104 8 % 16 ≠ 0
      || 2 ^ 63 ≤ n 112 8 || (n 112 8 = 0 && (n 128 48 ≠ 0 || n 176 48 ≠ 0))
  | 2 => n 64 2 = 0 || n 68 1 % 16 = 0 || n 72 8 % 65536 ≠ 0
  | 3 =>
    let ps := n 88 1 % 4
    let tk := n 88 1 / 16 % 4
    let pg := pageBytes ps
    ps = 3 || n 80 8 = 0 || n 80 8 % pg ≠ 0 || n 64 8 % pg ≠ 0 || (tk ≠ 3 && n 72 8 % pg ≠ 0) || (tk ≠ 2 && n 90 2 ≠ 0) ||
      (if hv then 2 ^ 48 < n 64 8 + n 80 8 || n 92 4 ≠ 0 || (tk = 3 && 4 ≤ n 72 8) || (tk = 2 && 2 ^ 52 < n 72 8 + n 80 8) || (tk = 0 && !physOk (n 72 8) (n 80 8))
        else tk ≠ 0 || !vaOk (n 64 8) (n 80 8) || 2 ^ 48 < n 72 8 + n 80 8)
  | 4 => n 64 8 % 4096 ≠ 0 || n 104 1 % 16 = 0
  | 5 => n 68 2 = 0 || 4096 < n 68 2 || n 70 1 % 16 = 0
  | 6 => n 64 8 % 4096 ≠ 0 || !(6 ≤ n 72 1 % 32 && n 72 1 % 32 ≤ 20) || n 80 8 % 64 ≠ 0
  | 7 => n 64 8 % 64 ≠ 0
  | _ => false

/-- R302: a kind in an area that does not take it, a tenant that is not the area's, an id of 0. -/
def recPlace (w : List Byte) (hv : Bool) (tenant : Nat) : Bool :=
  let k := recKind w
  recId w = 0 || (if hv then !([1, 3, 6, 7].contains k) || (k = 7 && recTenant w ≠ 0) else k = 1 || recTenant w ≠ tenant)

/-- R302: two records carry one id, one cid or one vm (and one tid: log entry 24). -/
def sameKey (w x : List Byte) : Bool :=
  recId w = recId x || (recKind w = 2 && recKind x = 2 && numAt w 64 2 = numAt x 64 2)
    || (recKind w = 1 && recKind x = 1 && (numAt w 66 2 = numAt x 66 2 || numAt w 64 2 = numAt x 64 2))

/-- R308: a record depends on another: by a dep id, by its TENANT, or by the CONTEXT its body names. -/
def recNeeds (w : List Byte) (hv : Bool) (x : List Byte) : Bool :=
  (recDeps w).contains (recId x) || (recKind x = 1 && recKind w ≠ 1 && recTenant w = recTenant x)
    || (recKind x = 2 && !hv && recCtx w = recId x)

namespace Slot
/-- R303: the object exists. -/
def alive (x : Slot) : Bool := !x.inforce.isEmpty
/-- R307: the record holds its id: its object exists, or it stands to be created. -/
def holds (x : Slot) : Bool := x.alive || (recLive x.want && (x.todo || x.job ≠ 0 || x.state = 1 || x.state = 2))
/-- The record that says what the object is. -/
def now (x : Slot) : List Byte := if x.alive then x.inforce else x.want
/-- R306: the version last observed. -/
def seen (x : Slot) : Nat := if x.todo then recVer x.want else x.obsv
end Slot

namespace State

/-- The slots that satisfy `p`, in ascending record id (R308). -/
def slotsBy (s : State) (p : Slot → Bool) : List Nat :=
  ((s.recon.slots.filter (fun e => p e.2)).mergeSort (fun x y => recId x.2.now ≤ recId y.2.now)).map (fun e => e.1)

/-! ### Conflicts -/

/-- R307: posts an entry to the conflict ring of the accepted root; a full ring drops it and counts it (log entry 43, DESIGN CHOICE). -/
def cfPost (cause kind id tenant area slot obsv conv : Nat) (s : State) : State :=
  match s.recon.root with
  | some r =>
    let a := s.recon.dsrroot.toNat
    let n := 2 ^ r.cflog2
    let t := s.recon.cftail
    let s := if n ≤ (t + 2 ^ 32 - s.hostNum (a + 0x108) 4) % 2 ^ 32 then s.setRecon (fun r => { r with cflost := (r.cflost + 1) % 2 ^ 32 })
      else (s.poke { sp := .host, addr := r.cfbase + 32 * (t % n) }
          (toBytes 2 cause ++ toBytes 2 kind ++ toBytes 4 id ++ toBytes 2 tenant ++ toBytes 2 area ++ toBytes 4 slot ++ toBytes 8 obsv ++ toBytes 8 conv)).setRecon
        (fun r => { r with cftail := (t + 1) % 2 ^ 32 })
    s.hostPut (a + 0x100) 8 (s.recon.cftail + 2 ^ 32 * s.recon.cflost)
  | none => s

/-- R307: the ring that receives the CONFLICT record of slot `k`; 0 for none. A TENANT record whose new version is refused has converged: its
object stays. -/
def conflictRing (s : State) (k : Nat) (w : List Byte) (hv : Bool) : Nat :=
  if hv then
    match s.tenants.find (recTenant w) with
    | some t => if (s.isConverged t.recId || s.slotOf t.recId = some k) && (s.rings.find t.hvring).isSome && s.isConverged t.hvring then t.hvring else s.hvRing
    | none => s.hvRing
  else if recCtx w ≠ 0 && (s.ctxs.find (recCtx w)).isSome && s.isConverged (recCtx w) then s.ctxRing (recCtx w) else s.tenantRing (recTenant w)

/-- R307: a conflict of a slot's observed record `w`: the object stays as version conv. -/
def conflict (k cause : Nat) (w : List Byte) (s : State) : State :=
  let s := s.setMark k (fun x => { x with state := 4, obsv := recVer w, want := w, todo := false, job := 0 })
  let x := s.slot k
  let s := s.cfPost cause (recKind w) (recId w) (recTenant w) (k / 65536) (k % 65536) (recVer w) x.conv
  let ring := s.conflictRing k w x.hv
  let s := if (s.rings.find ring).isSome && s.isConverged ring then s.postTo ring 7 0 (toBytes 4 (recId w) ++ toBytes 2 cause ++ toBytes 1 (recKind w) ++ toBytes 9 0) else s
  s.tapDev 0 0 (recTenant w) 0x3E (BitVec.ofNat 32 (recId w)) (BitVec.ofNat 32 (recVer w)) (BitVec.ofNat 32 cause) 0

/-! ### Observation -/

/-- The record of a slot as host memory holds it. -/
def readRecord (s : State) (k : Nat) : Option (List Byte × Bool) :=
  (s.areaAt k).map (fun a => (s.host.bytes (a.base + 256 * (k % 65536)) 256, a.tenant = 0))

/-- R315: has the task of a PROGRAM ended of itself. -/
def progEnded (s : State) (id : Nat) : Bool :=
  match s.progs.find id with
  | some g => g.stage = 3 && (match s.tasks.find g.task with | some t => t.ended && !t.stopped | none => false)
  | none => false

/-- R348: what has been read of the object of a PROGRAM record that another version follows goes. -/
def dropLoad (w : List Byte) (s : State) : State :=
  if recKind w = 4 then (s.dropReqs (recTenant w) (· == .loader (recId w))) |> fun s => { s with progs := s.progs.del (recId w) } else s

/-- R306, R347: a stable record is compared with what was observed and what is in force; the version last in force of a record whose
object has gone makes a new object (log entry 47, DEDUCED). -/
def observed (k : Nat) (w : List Byte) (hv : Bool) (s : State) : State :=
  let x := s.slot k
  let v := recVer w
  if recKind w = 0 then s
  else if x.job ≠ 0 then if v = recVer x.want then s else (s.setSlot k (fun x => { x with again := true })).setRecon (fun r => { r with due := true })
  else if v = x.seen then s
  else if v < max x.seen x.conv then (s.setSlot k (fun x => { x with hv := hv })).conflict k 1 w
  else if v = x.conv && x.alive then
    let s := s.setMark k (fun y => { y with state := if recKind x.inforce = 4 && s.progEnded (recId x.inforce) then 7 else 3, obsv := v, todo := false })
    if recKind x.inforce = 6 then s.ringCount (recId x.inforce) else s
  else ((if x.alive || (x.state ≠ 1 && x.state ≠ 2) then s else s.dropLoad x.want).setSlot k (fun x => { x with hv := hv, want := w, todo := true })).setRecon (fun r => { r with due := true })

/-- R306: reads a record: an odd version is retried, 16 times. -/
def observe (k : Nat) (s : State) : State :=
  match s.readRecord k with
  | none => s
  | some (w, hv) =>
    if recVer w % 2 = 1 then s.setSlot k (fun x => { x with retries := 16, readAt := s.now })
    else (if (s.slot k).retries = 0 then s else s.setSlot k (fun x => { x with retries := 0 })).observed k w hv

/-- R298, R300: every record of an area, or of every area. -/
def observeArea (a : Area) (s : State) : State := (List.range a.count).foldl (fun s i => s.observe (65536 * a.index + i + 1)) s
def observeAll (s : State) : State := s.recon.areas.foldl (fun s a => s.observeArea a) s

/-! ### The root -/

/-- R299: the root as read, if it is good. -/
def rootOf (w : List Byte) : Option Root :=
  let r : Root := { areatab := numAt w 0x10 8, nareas := numAt w 0x18 4, markbase := numAt w 0x20 8, nmarks := numAt w 0x28 4, cfbase := numAt w 0x30 8, cflog2 := numAt w 0x38 1 }
  if numAt w 0 4 = 0x53444D48 && numAt w 4 2 = 1 && zeroAt w 6 2 && zeroAt w 0x1C 4 && zeroAt w 0x2C 4 && zeroAt w 0x39 0xC7 && zeroAt w 0x10C 0x2F4
      && r.areatab % 64 = 0 && 1 ≤ r.nareas && r.nareas ≤ 4096 && r.markbase % 4096 = 0 && r.nmarks % 256 = 0 && r.nmarks ≤ 1048576
      && r.cfbase % 4096 = 0 && 6 ≤ r.cflog2 && r.cflog2 ≤ 16 then some r else none

/-- R300: the area-table entry `i`, if it is good beside the earlier ones. -/
def areaOf (w : List Byte) (i nmarks : Nat) (old : List Area) : Option Area :=
  let a : Area := { index := i, base := numAt w 0 8, tenant := numAt w 8 2, count := numAt w 12 4, markidx := numAt w 16 4 }
  if zeroAt w 10 2 && zeroAt w 20 12 && a.count ≤ 65535 && a.base % 4096 = 0 && a.markidx % 256 = 0 && a.markidx + a.count ≤ nmarks
      && old.all (fun o => !meets a.base (256 * (a.count + 1)) o.base (256 * (o.count + 1)) && !meets a.markidx a.count o.markidx o.count && !(a.tenant = 0 && o.tenant = 0))
    then some a else none

/-- R299, R300: reads the root: a good one is accepted with its areas, and its capability list is written (R323). -/
def readRoot (s : State) : State :=
  let a := s.recon.dsrroot.toNat
  if !s.recon.rooted || !s.spdm.verified then s
  else
    match (if a % 4096 = 0 then rootOf (s.host.bytes a 4096) else none) with
    | none => s.cfPost 10 0 0 0 0 0 0 0
    | some r =>
      let s := s.setRecon (fun x => { x with root := some r, areas := [] })
      let s := (List.range r.nareas).foldl (fun s i =>
        let w := s.host.bytes (r.areatab + 32 * i) 32
        match areaOf w i r.nmarks s.recon.areas with
        | some a => s.setRecon (fun x => { x with areas := x.areas ++ [a] })
        | none => s.cfPost 9 0 0 (numAt w 8 2) i 0 0 0) s
      s.pokeAll { sp := .host, addr := a + 0x400 } (capList 0)

/-- R330 step 4, R248: the cores of the clusters that failed their in-field tests at the reset are withdrawn. They are set so at the first
write of `dsrroot`, before which nothing can be placed (log entry 10, DESIGN CHOICE). -/
def failedTests (s : State) : State :=
  { s with cores := (List.range 384).foldl (fun t c => if Config.resetTestFailed s.resets (c / 4) then t.put c { t.get c default with withdrawn := true } else t) s.cores }

end State

/-- R298, R330 DSRROOT_WRITE: the first write; a later one has no effect until the next reset. -/
def execDsrrootWrite (addr : BitVec 64) (s : State) : Out :=
  .next (if s.recon.rooted then s else ((s.failedTests.setRecon (fun r => { r with dsrroot := addr, rooted := true })).readRoot).observeAll)

/-- R298, R299 HOST_SNOOP: a store to the root's first line, or to the header line of an area. -/
def execHostSnoop (addr : Nat) (s : State) : Out :=
  .next (if !s.recon.rooted then s
    else if addr / 64 = s.recon.dsrroot.toNat / 64 then s.readRoot.observeAll
    else (s.recon.areas.filter (fun x => x.base / 64 = addr / 64)).foldl (fun s x => s.observeArea x) s)

/-- R300, R308 SWEEP: every record of every area, and a pass. -/
def execSweep (s : State) : Out :=
  .next (if s.recon.root.isSome then s.observeAll.setRecon (fun r => { r with lastSweep := s.now, due := true }) else s)

/-- R306 RECORD_READ_RETRY: an odd version is read again, 1 µs after it was last read. -/
def execRecordReadRetry (area slot : Nat) (s : State) : Out :=
  .next (
    let k := 65536 * area + slot
    let n := (s.slot k).retries
    match s.readRecord k with
    | none => s
    | some (w, hv) =>
      if n = 0 || s.now < (s.slot k).readAt + 100 then s
      else if recVer w % 2 = 1 then s.setSlot k (fun x => { x with retries := n - 1, readAt := s.now })
      else (s.setSlot k (fun x => { x with retries := 0 })).observed k w hv)

end Sys2Proof.Machine
end

