-- ==== Sys2Proof/Machine/Program.lean ====
section
/-! DEFINITION. Code objects (R56 to R58), their verification (R315, R333, R336, R337), loading and relocation (R337, R341),
and the start of a program (R315). -/

namespace Sys2Proof.Machine

/-- R57: a section-table entry. -/
structure Sect where
  type : Nat
  align : Nat
  off : Nat
  size : Nat
  deriving DecidableEq, Repr

/-- R56, R57: what a code object says of its parts. -/
structure Obj where
  nlaunch : Nat
  launchtab : Nat
  argimg : Nat
  argsize : Nat
  objver : Nat
  sects : List Sect
  deriving DecidableEq, Repr

def Obj.ofBytes (w : List Byte) : Obj where
  nlaunch := numAt w 14 2
  launchtab := numAt w 40 8
  argimg := numAt w 48 8
  argsize := numAt w 56 4
  objver := numAt w 8 4
  sects := (List.range (numAt w 12 2)).map (fun i =>
    let o := numAt w 32 8 + 32 * i
    { type := numAt w o 4, align := numAt w (o + 4) 4, off := numAt w (o + 8) 8, size := numAt w (o + 16) 8 })

namespace Obj
/-- The section of a type. -/
def sect (o : Obj) (t : Nat) : Option Sect := o.sects.find? (fun x => x.type = t)
/-- Launch record `j` of the object's bytes. -/
def record (o : Obj) (w : List Byte) (j : Nat) : List Byte := (w.drop (o.launchtab + 128 * j)).take 128
/-- R58: every part that is not empty, as (offset, size): a section of size 0 is none, wherever its entry puts it (log entry 68, DESIGN
CHOICE). -/
def parts (o : Obj) (w : List Byte) : List (Nat × Nat) :=
  ([(0, 128), (numAt w 32 8, 32 * o.sects.length), (o.launchtab, 128 * o.nlaunch), (o.argimg, o.argsize)] ++ o.sects.map (fun x => (x.off, x.size))).filter (fun p => p.2 != 0)
/-- R337: the sections that are copied. -/
def copied (o : Obj) : List Sect := o.sects.filter (fun x => 1 ≤ x.type && x.type ≤ 4 && x.size != 0)
/-- R337: the image end, as an object offset. -/
def imageEnd (o : Obj) : Nat :=
  ((o.launchtab + 128 * o.nlaunch) :: (if o.argsize = 0 then 0 else o.argimg + o.argsize) :: o.copied.map (fun x => x.off + x.size)).foldl max 0

/-- R58, R333: a condition under which the Reconciler refuses an object, whose tables and argument image are parts of it as its sections
are. A section offset that is no multiple of 256 is refused, and an align below 64 is not (log entry 68, DESIGN CHOICE). -/
def bad (o : Obj) (w : List Byte) : Bool :=
  let ps := o.parts w
  numAt w 0 4 ≠ 0x4F4B4D48 || numAt w 4 2 ≠ 1 || numAt w 6 2 ≠ 128 || w.length < 128 || !zeroAt w 64 64
    || numAt w 16 8 ≠ Config.tstamp0.toNat || numAt w 24 8 ≠ Config.tstamp1.toNat || 4096 < o.argsize
    || ps.any (fun p => w.length < p.1 + p.2)
    || (List.range ps.length).any (fun i => (List.range i).any (fun j => meets (ps.getD i (0, 0)).1 (ps.getD i (0, 0)).2 (ps.getD j (0, 0)).1 (ps.getD j (0, 0)).2))
    || (List.range o.sects.length).any (fun i => !zeroAt w (numAt w 32 8 + 32 * i + 24) 8)
    || o.sects.any (fun x => x.type = 0 || 6 < x.type || x.off % 256 ≠ 0 || (x.type = 1 && x.size % 4 ≠ 0) || (x.type = 2 && x.size % 12 ≠ 0) || 1 < (o.sects.filter (fun y => y.type = x.type)).length)
    || (List.range o.nlaunch).any (fun j => (Launch.ofBytes (o.record w j)).rsv)

/-- R58, R341: the relocations of a `.sym` section of `w`: its entries end where the first name begins. -/
def relocsFrom (w : List Byte) (base : Nat) : Nat → Nat → Nat → List Nat
  | 0, _, _ => []
  | fuel + 1, i, lim =>
    if lim < 24 * (i + 1) then []
    else
      let e := base + 24 * i
      let name := numAt w e 4
      let rest := relocsFrom w base fuel (i + 1) (if name = 0 then lim else min lim name)
      if numAt w (e + 6) 2 = 4 then numAt w (e + 8) 8 :: rest else rest
def relocs (o : Obj) (w : List Byte) : List Nat :=
  match o.sect 6 with
  | some x => relocsFrom w x.off (x.size / 24) 0 (if numAt w 60 4 = 0 then x.size else min x.size (numAt w 60 4))
  | none => []

/-- R337: private bytes of the records 0 to `j` - 1. -/
def privBytes (o : Obj) (w : List Byte) (j : Nat) : Nat := ((List.range j).map (fun i => let l := Launch.ofBytes (o.record w i); l.blocks * l.pblock)).sum
/-- R337: the first 64 KiB boundary at or after the loaded image's end. -/
def privBase (o : Obj) (loadva : Nat) : Nat := (loadva + (o.imageEnd - o.launchtab) + 65535) / 65536 * 65536
/-- R337: the end of the load range. -/
def rangeEnd (o : Obj) (w : List Byte) (loadva : Nat) : Nat := o.privBase loadva + o.privBytes w o.nlaunch
end Obj

/-- Replaces the bytes of a list from `i` on. -/
def putBytes (l : List Byte) (i : Nat) (bs : List Byte) : List Byte := l.take i ++ bs ++ l.drop (i + bs.length)

/-- The bytes that a load copies. -/
def copiedImage (o : Obj) (w : List Byte) : List Byte := (w.drop o.launchtab).take (o.imageEnd - o.launchtab)

/-- A store into an image that is being loaded, kept in the list of the stores to do. -/
def patchImage (r : List Byte × List (Nat × List Byte)) (i : Nat) (bs : List Byte) : List Byte × List (Nat × List Byte) :=
  (putBytes r.1 i bs, r.2 ++ [(i, bs)])

/-- R337: the image as loaded, and the stores that load it: the copy, then its relocations, then what each launch record is given
(log entry 50, DEDUCED). -/
def loadImage (o : Obj) (w : List Byte) (loadva id : Nat) : List Byte × List (Nat × List Byte) :=
  let img := copiedImage o w
  let delta := (loadva + 2 ^ 64 - o.launchtab) % 2 ^ 64
  let r := (o.relocs w).foldl (fun r v => patchImage r (v - o.launchtab) (toBytes 8 (numAt r.1 (v - o.launchtab) 8 + delta))) (img, [(0, img)])
  (List.range o.nlaunch).foldl (fun r j =>
    let r := patchImage r (128 * j + 96) (toBytes 8 id ++ toBytes 4 o.objver)
    if numAt r.1 (128 * j + 16) 8 = 0 then patchImage r (128 * j + 16) (toBytes 8 (o.privBase loadva + o.privBytes w j)) else r) r

/-- R337, R58: the code of an object. -/
def Obj.code (o : Obj) (w : List Byte) : Code :=
  let s1 := (o.sect 1).getD { type := 1, align := 64, off := 0, size := 0 }
  let s2 := (o.sect 2).getD { type := 2, align := 64, off := 0, size := 0 }
  Code.ofBytes ((w.drop s1.off).take s1.size) ((w.drop s2.off).take s2.size) (s1.size / 4) (s2.size / 12)

/-- How a part of a load stands. -/
inductive Load where
  /-- it waits for a page or for a mapping -/
  | waits (s : State)
  /-- refused, with a cause of R307 -/
  | refused (cause : Nat)
  | done (s : State)

namespace State

/-- R315, R336, R337: does the object of a PROGRAM record fail its verification (log entry 37, DEDUCED). -/
def objectBad (s : State) (w : List Byte) (o : Obj) (raw : List Byte) : Bool :=
  let ctx := recCtx w
  let loadva := numAt w 96 8
  let delta := (loadva + 2 ^ 64 - o.launchtab) % 2 ^ 64
  let lr := Launch.ofBytes (o.record raw (numAt w 84 2))
  o.bad raw || o.nlaunch ≤ numAt w 84 2 || lr.bits true ≠ 0 || (o.code raw).scode.length ≤ lr.entry.toNat
    || (lr.handle != 0 && (s.progOf (recTenant w) lr.handle).isNone) || (lr.objver != 0 && lr.objver != o.objver)
    || (lr.mirror && (s.tenant (recTenant w)).fmask.getLsbD 0)
    || delta % 256 ≠ 0 || o.copied.any (fun x => delta % x.align ≠ 0)
    || (o.relocs raw).any (fun v => v < o.launchtab || o.imageEnd < v + 8)
    || !(s.maps.any (fun e => !e.2.stage2 && e.2.ctx = ctx && e.2.conv && s.isConverged e.1 && e.2.w && e.2.va ≤ loadva && o.rangeEnd raw loadva ≤ e.2.va + e.2.len))

/-- The lowest die of a set. -/
def dieOfMask (dies : Nat) : Nat := ((List.range 4).find? (fun d => dies.testBit d)).getD 0

/-- R337, R269: the load of program `p` waits for a page: one FAULT record for it, or a STAGE2 exit (log entry 50, DEDUCED). -/
def loadFault (p page mp : Nat) (gpa : Option Nat) (va : Nat) (s : State) : State :=
  let g := s.progs.get p default
  if g.faulted = some page then s
  else
    let s := { s with progs := s.progs.put p { g with faulted := some page } }.takeFree |> fun f => f.2.tapDev (dieOfMask g.dies) g.ctx g.tenant 0x2E (BitVec.ofNat 32 va) (BitVec.ofNat 32 (va / 2 ^ 32 % 2 ^ 25)) (Config.walkReads f.1) 0
    match gpa with
    | some a => s.postExit g.tenant 16 (s.cidOf g.ctx) (toBytes 8 a ++ toBytes 2 (s.tenant g.tenant).vm ++ toBytes 2 0 ++ toBytes 4 0)
    | none => s.postCtx g.ctx 1 (toBytes 8 va ++ toBytes 1 0 ++ toBytes 1 0 ++ toBytes 2 0 ++ toBytes 4 mp)

/-- R337: the stores of the load of program `p` go on, up to the end of a 64-byte line at a time. -/
def copyLines (p : Nat) : Nat → State → Load
  | 0, s => .done s
  | fuel + 1, s =>
    let g := s.progs.get p default
    match g.writes with
    | [] => .done s
    | (off, all) :: rest =>
      let va := (g.imageVa + off) % 2 ^ 64
      let n := min (64 - va % 64) all.length
      let bs := all.take n
      let next (s : State) : State := { s with progs := s.progs.upd p (fun g => { g with writes := if all.length ≤ n then rest else (off + n, all.drop n) :: rest }) }.forget (.loader p)
      match s.xlat g.ctx g.tenant va true with
      | .trap _ => .refused 6
      | .fault page mp gpa => .waits (s.loadFault p page mp gpa va)
      | .ok l _ =>
        match l.sp with
        | .remote node =>
          match s.remote (.loader p) 2 0 node l.addr n bs with
          | .wait t => .waits t
          | .err _ => .refused 6
          | .ok _ _ => copyLines p fuel (next s)
        | _ => copyLines p fuel (next (s.poke l bs))

/-- R315: the successor entries from the `k`-th on, read through the context's mappings. -/
def readSucc (p : Nat) (a : Nat) : Nat → List W64 → State → Load
  | 0, l, s => .done { s with progs := s.progs.upd p (fun g => { g with succ := l, stage := 2 }) }
  | k + 1, l, s =>
    let g := s.progs.get p default
    match s.xlat g.ctx g.tenant (a % 2 ^ 64) false with
    | .trap _ => .refused 6
    | .fault page mp gpa => .waits (s.loadFault p page mp gpa (a % 2 ^ 64))
    | .ok c _ =>
      match c.sp with
      | .remote node =>
        match s.remote (.loader p) 1 0 node c.addr 8 [] with
        | .wait t => .waits t
        | .err _ => .refused 6
        | .ok bs _ => readSucc p (a + 8) k (l ++ [BitVec.ofNat 64 (ofBytes (bs.take 8))]) s
      | _ => readSucc p (a + 8) k (l ++ [BitVec.ofNat 64 (ofBytes (s.peek c 8))]) s

/-- R348: the lines of an object of `size` bytes at a guest-physical address: address and bytes. -/
def objLines (gpa size : Nat) : List (Nat × Nat) := (List.range ((size + 63) / 64)).map (fun i => (gpa + 64 * i, min 64 (size - 64 * i)))

/-- R348: reads the lines of the object of program `p` that have not been read yet: those of this package at once, those of another when their
home answers. The answer is whether all have been read; none where a home refuses one. -/
def readLines (p tenant : Nat) : List (Nat × Nat) → Bool → State → Option (Bool × State)
  | [], ready, s => some (ready, s)
  | (a, n) :: r, ready, s =>
    let g := s.progs.get p default
    if (g.lines.find a).isSome then readLines p tenant r ready s
    else
      let x : Option Rem := match s.asked (.loader p) 1 a n with
        | some (_, x) => some x
        | none => (s.gpaLoc tenant a).map (fun l => match l.sp with | .remote node => s.remote (.loader p) 1 0 node l.addr n [] a | _ => .ok (s.peek l n) false)
      match x with
      | none => readLines p tenant r false s
      | some (.wait t) => readLines p tenant r false t
      | some (.err _) => none
      | some (.ok bs _) => readLines p tenant r ready { s with progs := s.progs.put p { g with lines := g.lines ++ [(a, bs.take n)] } }

/-- R348, R337: reads the object of a PROGRAM record as it stands when its verification begins, verifies it, and begins its load. -/
def beginLoad (w : List Byte) (s : State) : Load :=
  let ctx := recCtx w
  let size := numAt w 72 8
  let x := s.ctxs.get ctx default
  let all := objLines (numAt w 64 8) size
  if numAt w 104 1 % 16 &&& x.dies ≠ numAt w 104 1 % 16 then .refused 4
  else if size < 128 then .refused 6
  else if (s.progs.find (recId w)).isNone && !s.gpaReach (recTenant w) (numAt w 64 8) size then .waits s
  else
  match readLines (recId w) (recTenant w) all true (if (s.progs.find (recId w)).isSome then s else { s with progs := s.progs.put (recId w) { tenant := recTenant w, ctx := ctx } }) with
  | none => .refused 6
  | some (false, t) => .waits t
  | some (true, s) =>
    let raw := all.flatMap (fun l => (s.progs.get (recId w) default).lines.get l.1 [])
    let s := s.forget (.loader (recId w))
    let o := Obj.ofBytes raw
    if s.objectBad w o raw then .refused 6
    else
      let img := loadImage o raw (numAt w 96 8) (recId w)
      let va := numAt w 96 8
      let j := numAt w 84 2
      let g : Prog :=
        { tenant := recTenant w, ctx := ctx, launch := j, args := BitVec.ofNat 64 (numAt w 88 8)
          dies := numAt w 104 1 % 16, stage := 1, image := img.1, writes := img.2, imageVa := va
          newest := o.objver, versions := [(o.objver, o.code raw)]
          entries := (List.range o.nlaunch).map (fun i => (Launch.ofBytes (o.record raw i)).entry)
          argAddr := BitVec.ofNat 64 (va + o.argimg - o.launchtab), launchAddr := BitVec.ofNat 64 (va + 128 * j) }
      .done { s with progs := s.progs.put (recId w) g }

/-- The launch record of a loaded program that its start uses. -/
def progLaunch (s : State) (p : Nat) : Launch :=
  let g := s.progs.get p default
  Launch.ofBytes ((g.image.drop (128 * g.launch)).take 128)

/-- R315, R337: code verification of a PROGRAM record, from where it stands to the loaded object. -/
def loadProgram (w : List Byte) (s : State) : Load :=
  let p := recId w
  let r := match s.progs.find p with | some g => if g.stage = 0 then s.beginLoad w else Load.done s | none => s.beginLoad w
  match r with
  | .done s =>
    let g := s.progs.get p default
    (match (if g.stage = 1 then copyLines p ((g.writes.map (fun x => x.2.length / 64 + 2)).sum + 1) s else .done s) with
      | .done s =>
        let l := s.progLaunch p
        (match (if (s.progs.get p default).stage = 1 then readSucc p l.succ.toNat l.nsucc [] s else .done s) with
          | .done s => .done (s.forget (.loader p))
          | r => r)
      | r => r)
  | r => r

/-- R315: program start: one task of depth 0, ready at once; none where the die's task table has no room. -/
def startProgram (p : Nat) (s : State) : Option State :=
  let g := s.progs.get p default
  let d := dieOfMask g.dies
  if !s.tableFree d then none
  else
    let (id, s) := s.fresh
    let t : Task := { home := d, ctx := g.ctx, tenant := g.tenant, lr := s.progLaunch p, addr := g.launchAddr, args := g.args, prog := p, ver := g.newest, starts := true, dies := g.dies, succ := g.succ }
    let s := { s with tasks := s.tasks.put id t, progs := s.progs.put p { g with stage := 3, task := id, image := [] } }
    some (s.makeReady id)

/-- R310, R315: a program is stopped: its tasks, and those forked under them, place no more blocks, and the blocks they have
are stopped by the ladder (log entry 38, DEDUCED). -/
def stopTasks (key : Nat) (mine : Nat → Task → Bool) (s : State) : State :=
  let roots := (s.tasks.filter (fun e => mine e.1 e.2)).map (fun e => e.1)
  let all := (List.range s.tasks.length).foldl (fun l _ => l ++ (s.tasks.filter (fun e => e.2.forked && l.contains e.2.parent && !l.contains e.1)).map (fun e => e.1)) roots
  let s := { s with tasks := s.tasks.mapV (fun i t => if all.contains i && !t.ended && !t.stopped then
    { t with stopped := true, triggered := true, slot := 0, retired := t.retired + (t.lr.blocks - t.placed), killed := t.killed + (t.lr.blocks - t.placed), placed := t.lr.blocks } else t) }
  let bs := s.blocksOf (fun b => all.contains (s.block b).task && !((s.ladders.get key {}).blocks.contains b))
  if bs.isEmpty then s else s.startLadderOn key (.teardown key) false bs

end State
end Sys2Proof.Machine
end

