-- ==== Sys2Proof/Machine/Records.lean ====
section
/-! DEFINITION. The kinds of record (R310 to R318): what each creation step does, and what each teardown step does. -/

namespace Sys2Proof.Machine

/-- What a creation step makes of a record. -/
inductive Made where
  | converged (s : State)
  /-- it stays CONVERGING (R309) -/
  | waits (s : State)
  /-- it waits for its shootdown (R271) -/
  | shoot (s : State)
  /-- loaded: it starts at step 8 -/
  | loaded (s : State)
  | refused (cause : Nat)

/-- R314: the mapping of a record. -/
def Mapping.ofRec (w : List Byte) (hv : Bool) : Mapping where
  stage2 := hv
  tenant := recTenant w
  ctx := numAt w 92 4
  va := numAt w 64 8
  pa := numAt w 72 8
  len := numAt w 80 8
  psize := numAt w 88 1 % 4
  w := numAt w 88 1 / 4 % 2 = 1
  absent := numAt w 88 1 / 8 % 2 = 1
  tkind := numAt w 88 1 / 16 % 4
  node := numAt w 90 2

/-- Two mappings of one table whose input ranges overlap (R314). -/
def Mapping.clashes (m n : Mapping) : Bool :=
  m.stage2 = n.stage2 && (if m.stage2 then m.tenant = n.tenant else m.ctx = n.ctx) && meets m.va m.len n.va n.len

/-- Removes the pages `p` to `p + n - 1` from a list of ranges. -/
def cutRanges (p n : Nat) (l : List (Nat × Nat)) : List (Nat × Nat) :=
  (l.flatMap (fun r => [(r.1, min r.2 (p - r.1)), (max r.1 (p + n), r.1 + r.2 - max r.1 (p + n))])).filter (fun r => r.2 != 0)

/-- R311: the tenant of a record, with what its earlier version has used (log entry 48, DEDUCED). -/
def Tenant.ofRec (w : List Byte) (old : Tenant) : Tenant :=
  let t : Tenant :=
    { recId := Sys2Proof.Machine.recId w, vm := numAt w 66 2, grace := if numAt w 68 4 = 0 then 250 else numAt w 68 4, revq := numAt w 72 4, lbud := numAt w 76 4
      lquota := numAt w 80 4, fmask := BitVec.ofNat 32 (numAt w 84 4), dlbase := numAt w 88 8, dllog2 := numAt w 96 1 % 32, epoch := numAt w 97 3
      hvring := numAt w 100 4, dlhead := numAt w 104 8, noc := BitVec.ofNat 64 (numAt w 112 8), hard := numAt w 128 48, shared := numAt w 176 48
      slots := numAt w 224 32, revUsed := old.revUsed, full := old.full, fullTail := old.fullTail, parked := old.parked }
  let fresh := t.dlbase ≠ old.dlbase || t.dllog2 ≠ old.dllog2 || t.dlhead ≠ old.dlhead
  { t with dlTail := if fresh then 0 else old.dlTail, dirty := if fresh || old.epoch < t.epoch then [] else old.dirty }

/-- Bits of `n` common to both, as a number other than 0. -/
def common (m n : Nat) : Bool := m &&& n != 0

namespace State

/-! ### Accesses in flight -/

/-- The tenant for which a request was sent. -/
def whoTenant (s : State) : ReqWho → Nat
  | .scalar b _ => s.tenantOf b
  | .lane b _ _ _ => s.tenantOf b
  | .watch b _ => s.tenantOf b
  | .commit b => s.tenantOf b
  | .merge t => (s.task t).tenant
  | .loader p => (s.progs.get p default).tenant
  | .ring id => (s.rings.get id default).tenant
  | .filter id => (match s.recon.slots.first (fun _ x => recKind x.now = 7 && recId x.now = id) with | some e => recTenant e.2.now | none => 0)
  | .engine c q => (match ((s.core c).se.get q []).find? (fun e => !e.done && !s.heldEntry q e) with | some e => s.tenantOf e.blk | none => 0)
  | .exportOf id => (s.filters.get id default).tenant
  | .gone t => t

/-- R271: the tags of a tenant's requests that other packages have not answered yet. -/
def unanswered (s : State) (tenant : Nat) : List Nat :=
  (s.fab.reqs.filter (fun e => e.2.answer.isNone && s.whoTenant e.2.who = tenant)).map (fun e => e.1)

/-- R271: have all of them been answered. -/
def landed (s : State) (tags : List Nat) : Bool :=
  tags.all (fun t => match s.fab.reqs.find t with | some r => r.answer.isSome | none => true)

/-- R158, R199, R263, R271: does a tenant have accesses under way that are made of more than one event: a lane word of which some are in flight,
a row that goes out to another package, or a merged line that has been sent. A shootdown begins only after them. -/
def underWay (s : State) (tenant : Nat) : Bool :=
  s.blocks.any (fun e => s.tenantOf e.1 = tenant && s.wordsFlying e.1)
    || s.cores.any (fun c => c.2.se.any (fun q => q.2.any (fun e => s.tenantOf e.blk = tenant && !e.out.isEmpty)))
    || s.fab.reqs.any (fun e => e.2.msg.op = 3 && (match e.2.who with | .merge k => (s.task k).tenant = tenant | _ => false))

/-- R84, R271, R273: the late stores of every block, and the rows that stand half moved, are performed. -/
def performIssued (s : State) : State := (s.blocks.foldl (fun s e => s.performBlock e.1) s).endRows

/-- R239, R271: does a gate hold stores that entered it through a mapping (log entry 65, DEDUCED). -/
def gateHolds (s : State) (m : Mapping) : Bool :=
  s.blocks.any (fun e => !e.2.ended && s.tenantOf e.1 = m.tenant && (match e.2.mirror with
    | some x => x.gate.any (fun u => match u.page with
        | some (_, base, psize) => if m.stage2 then m.va ≤ base && base < m.va + m.len else s.ctxOf e.1 = m.ctx && meets base (pageBytes psize) m.pa m.len
        | none => false)
    | none => false))

/-! ### TENANT -/

/-- R312: does a tenant claim what another has. -/
def tenantClash (s : State) (tid : Nat) (t : Tenant) : Bool :=
  s.tenants.any (fun e => e.1 ≠ tid && (common t.hard (e.2.hard ||| e.2.shared) || common t.shared e.2.hard
    || (common t.shared e.2.shared && common t.slots e.2.slots) || common t.noc.toNat e.2.noc.toNat))
  || s.blocks.any (fun e => !e.2.ended && e.2.resident && s.tenantOf e.1 ≠ tid && t.hard.testBit e.2.core)

/-- R310: blocks of a tenant that stand on cores it does not hold. -/
def strays (s : State) (tid : Nat) : List Nat :=
  let t := s.tenant tid
  s.blocksOf (fun b => s.onCore b && s.tenantOf b = tid && !((t.hard ||| t.shared).testBit (s.coreOf b)))

/-- R319: does a tenant hold a core, of its own or in slots. -/
def holdsCore (s : State) (tid c : Nat) : Bool := ((s.tenant tid).hard ||| (s.tenant tid).shared).testBit c
/-- R223, R319: a core that a version claims is not yet cleared of what a tenant that does not hold it has left there: blocks, granules that
wait for the scrubber, or the accumulator area. -/
def uncleared (s : State) (tid : Nat) (t : Tenant) : Bool :=
  let mine (c : Nat) : Bool := (t.hard ||| t.shared).testBit c
  let gone (o c : Nat) : Bool := o ≠ tid && !s.holdsCore o c
  s.blocks.any (fun e => !e.2.ended && e.2.resident && mine e.2.core && gone (s.tenantOf e.1) e.2.core)
    || s.cores.any (fun e => mine e.1 && ((e.2.scrubbing ≠ 0 && !s.holdsCore tid e.1)
      || (match e.2.accown with | some x => gone (s.ctxs.get x default).tenant e.1 | none => false)))

/-- R229, R319: the accumulator areas that a tenant's contexts own on cores that it does not hold are spilled and cleared. -/
def clearCores (tid : Nat) (s : State) : State :=
  let t := s.tenant tid
  s.cores.foldl (fun s e =>
    match (s.core e.1).accown with
    | some x =>
      if (s.ctxs.get x default).tenant = tid && !((t.hard ||| t.shared).testBit e.1) then
        ((s.areaBlocks e.1 x).foldl (fun s b => s.leaveArea e.1 b) s).setCore e.1 (fun k => k.disown x)
      else s
    | none => s) s

/-- R273, R310 to R312, R319: a TENANT record; the cores that it claims, and those that it gives up, are cleared before it has converged,
and the accesses in flight when its epoch rises have been performed. -/
def makeTenant (k : Nat) (w : List Byte) (s : State) : Made :=
  let tid := recTenant w
  let t := Tenant.ofRec w (s.tenant tid)
  if s.tenantClash tid t then .refused 5
  else if s.uncleared tid t then .waits s
  else
    let rises := (s.tenant tid).epoch < t.epoch
    let s := if rises then s.performIssued else s
    if rises && s.underWay tid then .waits s
    else
    let s := if rises then s.setSlot k (fun x => { x with inflight := s.unanswered tid }) else s
    let s := { s with tenants := s.tenants.put tid (Tenant.ofRec w (s.tenant tid)) }
    let s := s.castOff (.rebalance (recId w)) (fun b => s.tenantOf b = tid && !s.holdsCore tid (s.coreOf b))
    let bs := s.groupsOf (s.strays tid)
    if bs.isEmpty then
      let s := s.clearCores tid
      if s.landed (s.slot k).inflight then .converged s else .waits s
    else
      let new := bs.filter s.unladdered
      .waits ((s.ctxsOf new).foldl (fun s x => s.startLadderOn x (.rebalance (recId w)) false (new.filter (fun b => s.ctxOf b = x))) s)

/-! ### CONTEXT -/

/-- R313, R278: a CONTEXT record; a larger save area is drawn from the clean pool of the lowest die named. -/
def makeCtx (w : List Byte) (s : State) : Made :=
  let id := recId w
  let old := s.ctxs.get id default
  let n := numAt w 72 8 / 65536
  let d := ((List.range 4).find? (fun d => (numAt w 68 1).testBit d)).getD 0
  let new (area : List Nat) : Ctx := { cid := numAt w 64 2, tenant := recTenant w, nopre := numAt w 66 1 % 2 = 1, dbg := numAt w 66 1 / 2 % 2 = 1, dies := numAt w 68 1 % 16, savebytes := numAt w 72 8, ring := numAt w 80 4, area := area }
  if (s.ctxs.find id).isSome && numAt w 72 8 < s.imagesOf id then .refused 4
  else if n ≤ old.area.length then
    let s := (s.freePages (old.area.drop n)).noWait id
    .converged { s with ctxs := s.ctxs.put id (new (old.area.take n)) }
  else
    match s.allocFor id d (n - old.area.length) with
    | some (ps, s) => .converged { s with ctxs := s.ctxs.put id (new (old.area ++ ps)) }
    | none => .waits (s.waitFor id d)

/-! ### MAPPING -/

/-- The package physical pages that a stage-2 mapping targets. -/
def mapPages (m : Mapping) : List Nat :=
  if !m.stage2 then []
  else if m.tkind = 0 then (List.range (m.len / 65536)).map (fun i => m.pa / 65536 + i) else if m.tkind = 3 then m.pages else []

/-- A mapping that exists targets a page. -/
def mapped (s : State) (p : Nat) : Bool := s.maps.any (fun e => (mapPages e.2).contains p && (s.slotOf e.1).isSome)

/-- R271, R277: the pages of a mapping that no other stage-2 mapping targets join the scrub queue, and those of its tables. -/
def leavePages (m : Mapping) (s : State) : State :=
  s.freePages ((mapPages m).filter (fun p => !s.mapped p) ++ m.tables)

/-- R309, R354: may a mapping be used now; its record stays CONVERGING otherwise. -/
def mapReady (s : State) (m : Mapping) : Bool := !(m.stage2 && m.tkind = 2) || ((s.peer m.node).state = 1 && (s.peer m.node).node = m.node)

/-- R278, R314: the pages that a tkind 0 mapping targets: is each clean, or the target of a mapping already, and must one leave the pool. -/
def pagesClean (s : State) (m : Mapping) : Bool × Bool :=
  let clean := (s.die (m.pa / 2 ^ 38)).clean
  let ps := (List.range (m.len / 65536)).map (fun i => m.pa / 65536 + i)
  let in_ (p : Nat) : Bool := clean.any (fun r => r.1 ≤ p && p < r.1 + r.2)
  (ps.all (fun p => in_ p || s.mapped p), ps.any in_)
/-- R278, R314: the pages behind a mapping: those of a tkind 3 are drawn from their die's clean pool; those of a tkind 0 leave it, or
are pages that a mapping targets already, in the order of the die's requests. None while the pool is short, or while a page is not clean (log
entry 49, DEDUCED). -/
def mapBacking (id : Nat) (m : Mapping) (have_ : List Nat) (s : State) : Option (List Nat × State) :=
  if !m.stage2 then some ([], s)
  else if m.tkind = 3 then
    let n := m.len / 65536
    if n ≤ have_.length then some (have_, s.noWait id) else (s.allocFor id (m.pa % 4) (n - have_.length)).map (fun r => (have_ ++ r.1, r.2))
  else if m.tkind = 0 then
    let d := m.pa / 2 ^ 38
    let q := (s.die d).waitq
    if !(s.pagesClean m).1 || ((s.pagesClean m).2 && !(q.isEmpty || q[0]? = some id)) then none
    else some (have_, (s.noWait id).setDie d (fun x => { x with clean := cutRanges (m.pa / 65536) (m.len / 65536) x.clean }))
  else some (have_, s)

/-- R268, R278: the die, and the number, of the pages that the tables of a version of a MAPPING record take (log entry 63, DESIGN CHOICE). -/
def tableDie (id : Nat) (w : List Byte) : Nat := (Config.tablePages id (recVer w)).1 % 4
def tableCount (id : Nat) (w : List Byte) : Nat := (Config.tablePages id (recVer w)).2

/-- R278: draws the pages of a version's tables; none while the pool is short (log entry 63, DESIGN CHOICE). -/
def drawTables (k : Nat) (w : List Byte) (s : State) : Option State :=
  let id := recId w
  let x := s.slot k
  let need := (if x.alive then tableCount id x.inforce else 0) + tableCount id w - (s.maps.get id default).tables.length
  if need = 0 then some s
  else (s.allocFor id (tableDie id w) need).map (fun r => { r.2 with maps := r.2.maps.upd id (fun m => { m with tables := m.tables ++ r.1 }) })

/-- R314, R323, R324, R354: a MAPPING record is refused at its step: OVERLAP, with the capability page too (log entry 15, DESIGN CHOICE), or
VALUE for a node or a masked feature. A mapping that is changing its range has not converged in the new one. -/
def mapRefused (s : State) (k : Nat) (m : Mapping) (w : List Byte) : Option Nat :=
  let fab := s.fab
  if m.stage2 && m.tkind = 2 && ((s.tenant m.tenant).fmask.getLsbD 4 || (match fab.node with | some n => m.node / 64 ≠ n.toNat / 64 || m.node = n.toNat | none => false)) then some 4
  else if !m.stage2 && meets m.va m.len capVa 65536 then some 5
  else if s.recon.slots.any (fun e => e.1 ≠ k && e.2.alive && (e.2.job = 4 || e.2.job = 5) && recKind e.2.want = 3 && recLive e.2.want && recId e.2.want < recId w
      && m.clashes (Mapping.ofRec e.2.want e.2.hv)) then some 5
  else if s.recon.slots.any (fun e => e.1 ≠ k && recKind e.2.now = 3 && (e.2.alive || ((e.2.state = 1 || e.2.state = 2) && recLive e.2.want && recId e.2.want < recId w)) && m.clashes (Mapping.ofRec e.2.now e.2.hv)) then some 5
  else none

/-- A new ring on another package until its home has its first tail word (R328). -/
def stagedKey (id : Nat) : Nat := 2 ^ 32 + id

/-- What an attempt that did not finish has left is undone: a version in force stands as it stood. -/
def abandon (k : Nat) (s : State) : State :=
  let x := s.slot k
  let id := recId x.want
  let s := s.noWait id
  let s := if recKind x.want = 6 && (s.rings.find (stagedKey id)).isSome then { s with rings := s.rings.del (stagedKey id) }.dropReqs (recTenant x.want) (· == ReqWho.ring (stagedKey id)) else s
  if x.alive then
    if recKind x.inforce = 3 && recId x.inforce = id && x.job ≠ 1 && x.job ≠ 2 && x.job ≠ 6 then
      match s.maps.find id with
      | some m =>
        let n := tableCount id x.inforce
        let p := if m.stage2 && m.tkind = 3 then m.len / 65536 else 0
        { s with maps := s.maps.put id { m with conv := m.conv || s.mapReady m, va2 := 0, len2 := 0, pages := m.pages.take p, tables := m.tables.take n } }.freePages (m.pages.drop p ++ m.tables.drop n)
      | none => s
    else s
  else
    match recKind x.want with
    | 3 => (match s.maps.find id with
        | some m => { s with maps := s.maps.del id }.freePages (m.pages ++ m.tables)
        | none => s)
    | 4 => (s.dropReqs (recTenant x.want) (· == .loader id)) |> fun s => { s with progs := s.progs.del id }
    | 7 => s.dropReqs (recTenant x.want) (· == .filter id)
    | _ => s

/-- R314: of two mappings that overlap, neither converged, the one with the higher id is refused. -/
def mapLosers (k : Nat) (m : Mapping) (w : List Byte) (s : State) : State :=
  (s.recon.slots.filter (fun e => e.1 ≠ k && !e.2.alive && e.2.job = 4 && recKind e.2.want = 3 && recId w < recId e.2.want && m.clashes (Mapping.ofRec e.2.want e.2.hv))).foldl
    (fun s e => (s.abandon e.1).conflict e.1 5 e.2.want) s

/-- R271, R309: from the moment a version is applied, the accesses through the mapping fault: of a mapping in force, those that have issued
here are performed, and those that are in flight are awaited. -/
def openMap (k : Nat) (m : Mapping) (s : State) : State :=
  let x := s.slot k
  let id := recId x.want
  let old := s.maps.get id default
  if x.alive then
    let s := if old.conv then (s.setSlot k (fun x => { x with inflight := s.unanswered m.tenant })).tapDev 0 m.ctx m.tenant 0x2F (BitVec.ofNat 32 old.va) (BitVec.ofNat 32 (old.va / 2 ^ 32 % 2 ^ 25)) 0 0 else s
    { s with maps := s.maps.put id { old with conv := false, va2 := m.va, len2 := m.len } }
  else { s with maps := s.maps.put id { m with pages := old.pages, tables := old.tables } }

/-- R271, R278, R309, R310, R314: a MAPPING record: a new mapping, or the shootdown of the old one. -/
def makeMap (k : Nat) (w : List Byte) (s : State) : Made :=
  let id := recId w
  let x := s.slot k
  let m := Mapping.ofRec w x.hv
  match s.mapRefused k m w with
  | some c => .refused c
  | none =>
    let s := s.mapLosers k m w
    let ready (s : State) : Made := if s.mapReady m then .converged { s with maps := s.maps.upd id (fun m => { m with conv := true }) } else .waits s
    if x.alive && recVer x.inforce = recVer w then ready s
    else
      let open_ := x.alive && (s.maps.get id default).conv
      let s := if open_ then s.performIssued else s
      if open_ && s.underWay m.tenant then .waits s
      else
      let s := s.openMap k m
      match s.drawTables k w with
      | none => .waits (s.waitFor id (tableDie id w))
      | some s =>
        match s.mapBacking id m (s.maps.get id default).pages with
        | none => .waits (s.waitFor id (if m.tkind = 3 then m.pa % 4 else m.pa / 2 ^ 38))
        | some (ps, s) =>
          let s := { s with maps := s.maps.upd id (fun m => { m with pages := ps }) }
          if x.alive then .shoot s else ready s

/-! ### RING, QUEUE -/

/-- R328: the first tail word of a new ring on another package is sent: the ring converges once it has been written with every record that was
dropped before (R309). -/
def stageRing (id : Nat) (r : Ring) (s : State) : Made :=
  let key := stagedKey id
  let x := s.takeDropped id ((s.rings.find key).getD r)
  let again := (s.rings.find key).isNone || s.recon.dropped.get id 0 ≠ 0
  let s := (if again then { x.2 with rings := x.2.rings.put key { x.1 with fresh := true } } else s).ringGo key
  match s.rings.find key with
  | some r => if r.fresh then .waits s else .converged { s with rings := (s.rings.del key).put id r }
  | none => .waits s

/-- R309, R310, R317, R328: a RING record: a new ring, whose counts start at 0 but for what was dropped before. What an old ring on another package has
still to write is written first. -/
def makeRing (k : Nat) (w : List Byte) (s : State) : Made :=
  let id := recId w
  let r : Ring := { hv := (s.slot k).hv, tenant := recTenant w, base := numAt w 64 8, log2 := numAt w 72 1 % 32, vec := numAt w 76 2 % 2048, ctl := numAt w 80 8 }
  if !(s.rings.get id default).pend.isEmpty then .waits (s.ringGo id)
  else if s.ringRemote r then s.stageRing id r
  else
    let x := s.takeDropped id r
    .converged ({ x.2 with rings := x.2.rings.put id x.1 }.ringPut x.1 x.1.ctl (tailWord x.1))

/-- R316: a QUEUE record. -/
def makeQueue (w : List Byte) (s : State) : Made :=
  let d := numAt w 70 1 % 16
  if d &&& (s.ctxs.get (recCtx w) default).dies ≠ d then .refused 4
  else .converged { s with queues := s.queues.put (recId w) { tenant := recTenant w, ctx := recCtx w, cap := numAt w 68 2, dies := d } }

/-! ### FILTER -/

/-- R286, R287: the filter of an image of a tenant (0: the hypervisor). -/
def filterOf (b : List Byte) (tenant die : Nat) : Filter :=
  let nobj := numAt b 2 1
  { tenant := tenant, die := die, evtype := numAt b 0 1, clr := numAt b 3 1 % 2 = 1, period := numAt b 4 4, exaddr := numAt b 8 8
    decls := (List.range nobj).map (fun j => let o := 16 + 16 * j; { kind := numAt b o 1, mode := numAt b (o + 1) 1, shift := numAt b (o + 2) 1, param := BitVec.ofNat 32 (numAt b (o + 4) 4) })
    words := (List.range (numAt b 1 1)).map (fun i => BitVec.ofNat 32 (numAt b (16 + 16 * nobj + 4 * i) 4)) }

/-- R287: a declaration outside the table. -/
def declBad (d : Decl) : Bool :=
  match d.kind with
  | 1 => 1 < d.mode || 31 < d.shift
  | 2 => d.mode ≠ 0 || d.shift ≠ 0 || d.param ≠ 0
  | 3 => d.mode ≠ 0 || d.shift ≠ 0 || d.param ≠ 0
  | 4 => 10 < d.mode || d.shift ≠ 0 || d.param ≠ 0
  | 5 => 1 < d.mode || d.shift ≠ 0
  | _ => true

/-- R55, R288: word `i` of a filter is refused. -/
def wordBad (f : Filter) (i : Nat) (w : W32) : Bool :=
  let obj (o : BitVec 12) (kind : Nat) : Bool := match f.decls[o.toNat]? with | some d => d.kind ≠ kind | none => true
  match decodeLantern w.toNat with
  | none => true
  | some (.gskip _ _ _ n) => n = 0 || f.words.length ≤ i + 1 + n.toNat
  | some (.glde _ x) => 12 ≤ x.toNat
  | some (.ghist _ _ o) => obj o 1
  | some (.gsketch _ _ o) => obj o 2
  | some (.gcount _ o) => obj o 3
  | some (.gsample _ _ o) => obj o 4
  | some (.gtrig _ _ o) => obj o 5
  | some _ => false

/-- The bytes of a set of filters' objects. -/
def objBytes (fs : Tab Filter) : Nat := (fs.map (fun e => (e.2.decls.map Decl.size).sum)).sum

/-- R55, R286, R287: is the image refused, beside the filters that stand. -/
def filterBad (s : State) (id : Nat) (b : List Byte) (f : Filter) : Bool :=
  let others := s.filters.filter (fun e => e.1 ≠ id && e.2.die = f.die)
  let mine := (f.decls.map Decl.size).sum
  63 < f.evtype || f.words.isEmpty || 64 < f.words.length || 64 < f.decls.length || 2 ≤ numAt b 3 1 || f.exaddr % 64 ≠ 0
    || (List.range f.decls.length).any (fun j => !zeroAt b (16 + 16 * j + 3) 1 || !zeroAt b (16 + 16 * j + 8) 8)
    || f.decls.any declBad || (List.range f.words.length).any (fun i => wordBad f i (f.words.getD i 0))
    || (match decodeLantern (f.words.getLastD 0).toNat with | some .gend => false | _ => true)
    || 8 ≤ (others.filter (fun e => e.2.evtype = f.evtype)).length
    || (f.tenant ≠ 0 && (s.tenant f.tenant).lquota < mine + objBytes (others.filter (fun e => e.2.tenant = f.tenant)))
    || 262144 < mine + objBytes others

/-- R286, R292, R318: a FILTER record: the old filter is detached between two runs, and the new one attached with fresh objects; the window
that runs then counts for nothing. -/
def makeFilter (k : Nat) (w : List Byte) (s : State) : Made :=
  let id := recId w
  let hv := (s.slot k).hv
  let tn := if hv then 0 else recTenant w
  let a := numAt w 64 8
  let read (n : Nat) : Rem := if hv then .ok (s.host.bytes a n) false else s.gpaBytes (.filter id) tn a n
  if !hv && (s.tenant tn).fmask.getLsbD 3 then .refused 4
  else if !hv && !s.gpaReach tn a 16 then .waits s
  else
    match read 64 with
    | .wait t => .waits t
    | .err _ => .waits s
    | .ok h _ =>
      let size := 16 + 16 * numAt h 2 1 + 4 * numAt h 1 1
      if !hv && !s.gpaReach tn a size then .waits s
      else
        match read size with
        | .wait t => .waits t
        | .err _ => .waits s
        | .ok b _ =>
          let s := s.forget (.filter id)
          let f := filterOf b tn (numAt w 72 1 % 4)
          if s.filterBad id b f then .refused 7
          else if (s.filters.find id).isSome && (s.lantern (s.filters.get id default).die).run = some id then .waits s
          else
            let s := if (s.filters.find id).isSome then s.detachFilter id else s
            .converged { s with filters := s.filters.put id { f with dropBase := s.dropsOf f, since := s.now / 100000 } }

/-! ### The steps -/

/-- R308, R367: the creation step of a kind, and its teardown steps. -/
def createStep (kind : Nat) : Nat := match kind with | 1 => 1 | 2 => 2 | 3 => 3 | 6 => 4 | 5 => 5 | 4 => 6 | _ => 7
def tearSteps (kind : Nat) : List Nat := match kind with | 4 => [1, 3] | 7 => [2] | 5 => [4] | 6 => [5] | 3 => [6] | 2 => [7] | _ => [8]

/-- R308: the record's dependencies are CONVERGED. -/
def depsMet (s : State) (w : List Byte) (hv : Bool) : Bool :=
  (recDeps w).all s.isConverged
    && (recKind w = 1 || (hv && recTenant w = 0 && recKind w ≠ 3) || (match s.tenants.find (recTenant w) with | some t => s.isConverged t.recId | none => false))
    && (hv || recCtx w = 0 && !([3, 4, 5].contains (recKind w)) || ((s.ctxs.find (recCtx w)).isSome && s.isConverged (recCtx w)))

/-- The creation step of a record. -/
def makeObject (k : Nat) (w : List Byte) (s : State) : Made :=
  match recKind w with
  | 1 => s.makeTenant k w
  | 2 => s.makeCtx w
  | 3 => s.makeMap k w
  | 4 => (match s.loadProgram w with | .waits t => .waits t | .refused c => .refused c | .done t => .loaded t)
  | 5 => s.makeQueue w
  | 6 => s.makeRing k w
  | _ => s.makeFilter k w

/-- R303, R328: the record has converged. -/
def settled (k : Nat) (s : State) : State :=
  s.setMark k (fun x => { x with state := 3, obsv := recVer x.want, conv := recVer x.want, inforce := x.want, job := 0, inflight := [] })

/-- R308: a record's creation step: WAITING without its dependencies, else CONVERGING and what its kind makes of it. A PROGRAM that waits keeps
what has been read of its object (R348). -/
def createSlot (k : Nat) (s : State) : State :=
  let x := s.slot k
  let w := x.want
  if !s.depsMet w x.hv then (if recKind w = 4 && !x.alive then s else s.abandon k).setMark k (fun x => { x with state := 2, obsv := recVer w, job := 0 })
  else
    let s := s.setMark k (fun x => { x with state := 1, obsv := recVer w })
    match s.makeObject k w with
    | .converged t => t.settled k
    | .waits t => t.setSlot k (fun x => { x with job := 4 })
    | .shoot t => t.setSlot k (fun x => { x with job := 5 })
    | .loaded t => t.setSlot k (fun x => { x with job := 8 })
    | .refused c => (s.abandon k).conflict k c w

/-- R315: step 8 of a loaded PROGRAM. -/
def startSlot (k : Nat) (s : State) : State :=
  match s.startProgram (recId (s.slot k).want) with
  | some t => t.settled k
  | none => s.setSlot k (fun x => { x with job := 4 })

/-- R308, R310: the object of a slot is gone: its mark, and a creation that follows. -/
def tornSlot (k : Nat) (s : State) : State :=
  let x := s.slot k
  match x.job with
  | 1 => s.setMark k (fun x => { x with state := 6, obsv := recVer x.want, inforce := [], job := 0 })
  | 6 => s.setMark k (fun x => { x with state := 6, inforce := [], job := 0 })
  | _ => s.setSlot k (fun x => { x with inforce := [], conv := 0, job := 3 })

/-- R308: no object that depends on the slot's still exists; a new version of a PROGRAM tears nothing else down (R310). -/
def noUsers (s : State) (k : Nat) : Bool :=
  let x := s.slot k
  x.job = 7 || s.recon.slots.all (fun e => e.1 = k || !e.2.alive || !recNeeds e.2.inforce e.2.hv x.inforce)

/-- A task that has not ended. -/
def anyTask (s : State) (p : Task → Bool) : Bool := s.tasks.any (fun e => p e.2 && !e.2.ended)

/-- R310, R349: a PROGRAM's own task, or one that its stop has reached, has not ended. -/
def programBusy (s : State) (id : Nat) : Bool := s.anyTask (fun t => t.prog = id && (t.starts || t.stopped))

/-- R229, R277: a context is gone: its accumulator areas are cleared and its save area is released. -/
def dropCtx (id : Nat) (s : State) : State :=
  let area := (s.ctxs.get id default).area
  let s := (s.forgetMerges id)
  let s := { s with
    cores := s.cores.mapV (fun _ c => c.disown id)
    ctxs := s.ctxs.del id
    tasks := s.tasks.filter (fun e => e.2.ctx ≠ id)
    ladders := s.ladders.filter (fun e => s.ladderCtx e.1 ≠ id) }
  (s.freePages area).noWait id

/-- R339, R349: the tasks of an ended PROGRAM's object that run on keep the versions they are bound to, and no other stands. -/
def orphanTasks (id : Nat) (s : State) : State :=
  if s.anyTask (fun t => t.prog = id) then
    let (n, s) := s.fresh
    { s with
      progs := s.progs.put (2 ^ 32 + n) (let g := s.progs.get id default; { g with newest := 0, versions := g.versions.filter (fun v => s.anyTask (fun t => t.prog = id && t.ver = v.1)) })
      tasks := s.tasks.mapV (fun _ t => if t.prog = id then { t with prog := 2 ^ 32 + n } else t) }
  else s

/-- R308, R316, R319, R328, R349: teardown step `n` of the slot's object; its slot's job ends when the object is gone. -/
def tearSlot (n k : Nat) (s : State) : State :=
  let w := (s.slot k).inforce
  let id := recId w
  match recKind w with
  | 4 =>
    if s.programBusy id then (if n = 1 then s.stopTasks id (fun _ t => t.prog = id && !t.ended) else s)
    else if n = 1 then s
    else
      let s := s.orphanTasks id
      { s with progs := s.progs.del id, ladders := s.ladders.del id }.tornSlot k
  | 7 => if (s.filters.find id).isSome && (s.lantern (s.filters.get id default).die).run = some id then s else (s.detachFilter id).tornSlot k
  | 5 => { s with queues := s.queues.del id, tasks := s.tasks.filter (fun e => !(e.2.queue = id && !e.2.forked && !e.2.starts && e.2.placed = 0 && !e.2.ended)) }.tornSlot k
  | 6 => if !(s.rings.get id default).pend.isEmpty then s.ringGo id
    else ({ s with rings := s.rings.del id }.dropReqs (recTenant w) (fun r => r == ReqWho.ring id)).tornSlot k
  | 3 =>
    let m := s.maps.get id default
    if (s.maps.find id).isNone then s.tornSlot k
    else if m.conv then
      let s := s.performIssued
      if s.underWay m.tenant then s
      else
      { s.setSlot k (fun x => { x with inflight := s.unanswered m.tenant }) with maps := s.maps.put id { m with conv := false } }.tapDev 0 m.ctx m.tenant 0x2F (BitVec.ofNat 32 m.va) (BitVec.ofNat 32 (m.va / 2 ^ 32 % 2 ^ 25)) 0 0 else s
  | 2 =>
    if s.anyTask (fun t => t.ctx = id) then s.stopTasks id (fun _ t => t.ctx = id && !t.ended) else (s.dropCtx id).tornSlot k
  | _ => if s.recon.stopping.contains id then s else s.setRecon (fun r => { r with stopping := r.stopping ++ [id] })

end State
end Sys2Proof.Machine
end

