-- ==== Sys2Proof/Machine/Pass.lean ====
section
/-! DEFINITION. The passes of the Reconciler (R308 to R310), shootdowns (R271), the grants of the clean pool (R278), the end of a
tenant (R328) and package reset (R330). -/

namespace Sys2Proof.Machine
namespace State

/-! ### Validation -/

/-- R302: a dependency of a record on a record of another tenant that is not the hypervisor's. -/
def crossDep (s : State) (w : List Byte) (hv : Bool) : Bool :=
  let ids := recDeps w ++ (if hv || recCtx w = 0 then [] else [recCtx w])
  s.recon.slots.any (fun e => e.2.holds && ids.contains (recId e.2.now) && recTenant e.2.now ≠ recTenant w && !e.2.hv)

/-- R302, R307: the conflict of a stable record, checked in the order of the table (log entry 24, DEDUCED). -/
def recordFault (s : State) (k : Nat) : Option Nat :=
  let x := s.slot k
  let w := x.want
  let tenant := match s.areaAt k with | some a => a.tenant | none => recTenant w
  if 7 < recKind w then some 4
  else if recReserved w then some 3
  else if recPlace w x.hv tenant || recRange w x.hv then some 4
  else if s.crossDep w x.hv then some 8
  else if s.recon.slots.any (fun e => e.1 ≠ k && e.2.holds && (e.2.alive || e.1 < k) && sameKey w e.2.now) then some 2
  else none

/-- R307: the records that lose an id to slot `k`: neither has converged, and they lie higher. -/
def idLosers (k : Nat) (s : State) : State :=
  let w := (s.slot k).want
  if recLive w then
    (s.recon.slots.filter (fun e => k < e.1 && !e.2.alive && !e.2.todo && (e.2.state = 1 || e.2.state = 2) && sameKey w e.2.want)).foldl
      (fun s e => (s.abandon e.1).conflict e.1 2 e.2.want) s
  else s

/-! ### The beginning of a pass -/

/-- R315: a PROGRAM names a die that its CONTEXT, as it is or as this pass will make it, does not name. -/
def farDies (s : State) (w : List Byte) : Bool :=
  match s.recon.slots.first (fun _ x => recKind x.now = 2 && x.holds && recId x.now = recCtx w) with
  | some (_, x) =>
    let c := if (x.todo || x.job ≠ 0) && recKind x.want = 2 then x.want else x.now
    numAt w 104 1 % 16 &&& numAt c 68 1 ≠ numAt w 104 1 % 16
  | none => false

/-- R308, R310, R347, R349: what a valid record's new version asks for (log entry 49, DEDUCED). -/
def assign (k : Nat) (s : State) : State :=
  let x := s.slot k
  let w := x.want
  let v := recVer w
  let same := recKind w = recKind x.inforce && recId w = recId x.inforce && (recKind w ≠ 1 || recTenant w = recTenant x.inforce)
  if !recLive w then
    if x.alive then
      if x.state = 7 then s.setSlot k (fun x => { x with todo := false, job := 1 })
      else s.setMark k (fun x => { x with state := 5, obsv := v, todo := false, job := 1 })
    else s.setMark k (fun x => { x with state := 6, obsv := v, todo := false })
  else if !x.alive then s.setSlot k (fun x => { x with todo := false, job := 3 })
  else if !same then s.setMark k (fun x => { x with state := 5, obsv := v, todo := false, job := 2 })
  else if recKind w = 4 && s.farDies w then s.conflict k 4 w
  else if recKind w = 4 then s.setMark k (fun x => { x with state := 1, obsv := v, todo := false, job := 7 })
  else s.setSlot k (fun x => { x with todo := false, job := 3 })

/-- R302, R308, R347: a record that a pass takes is checked, and then has its job; of one that is to be a new object no version is in force. -/
def takeSlot (k : Nat) (s : State) : State :=
  let s := s.setSlot k (fun x => if recLive x.want && !x.alive then { x with conv := 0 } else x)
  match s.recordFault k with
  | some c => s.conflict k c (s.slot k).want
  | none => (s.idLosers k).assign k

/-- R308: the objects that go with those being torn down, and what their slots do. -/
def cascade (s : State) : State :=
  let roots := s.recon.slots.filter (fun e => (e.2.job = 1 || e.2.job = 2 || e.2.job = 6) && e.2.alive)
  let all := (List.range s.recon.slots.length).foldl (fun (l : Tab Slot) _ =>
    l ++ s.recon.slots.filter (fun e => (e.2.alive || e.2.job = 4) && !(l.any (fun r => r.1 = e.1)) && l.any (fun r => r.2.alive && recNeeds e.2.now e.2.hv r.2.inforce))) roots
  (all.drop roots.length).foldl (fun s e =>
    if !e.2.alive then (s.abandon e.1).setMark e.1 (fun x => { x with state := 6, job := 0 })
    else if e.2.job = 3 || e.2.job = 7 then s.setSlot e.1 (fun x => { x with job := 2 })
    else if e.2.job = 0 || e.2.job = 4 then (s.noWait (recId e.2.inforce)).setSlot e.1 (fun x => { x with job := 6 })
    else s) s

/-- Is a pass under way. -/
def passing (s : State) : Bool := s.recon.slots.any (fun e => e.2.job ≠ 0 && e.2.job ≠ 4)

/-- R308: a pass begins: it takes every record whose version changed, every WAITING one, and those that wait for pages or a
peer (R309). -/
def beginPass (s : State) : State :=
  let due := s.recon.due
  let late := (s.recon.slots.filter (fun e => e.2.again && e.2.job = 0)).map (fun e => e.1)
  let s := late.foldl (fun s k => (s.setSlot k (fun x => { x with again := false })).observe k) s
  let s := s.setRecon (fun r => { r with due := r.slots.any (fun e => e.2.again) })
  let s := { s with recon := { s.recon with slots := s.recon.slots.mapV (fun _ x => if x.job = 4 then { x with job := 3 } else x) } }
  let news := (s.recon.slots.filter (fun e => e.2.todo)).map (fun e => e.1)
  let s := news.foldl (fun s k => if (s.slot k).todo then s.takeSlot k else s) s
  let waits := if due then (s.recon.slots.filter (fun e => e.2.state = 2 && e.2.job = 0 && !e.2.todo)).map (fun e => e.1) else []
  let s := waits.foldl (fun s k => if (s.slot k).state = 2 then s.takeSlot k else s) s
  s.cascade

/-! ### The steps of a pass -/

/-- The slots that a teardown step takes now. -/
def tearing (s : State) (n : Nat) : List Nat :=
  (s.slotsBy (fun x => x.alive && (x.job = 1 || x.job = 2 || x.job = 6 || x.job = 7) && (tearSteps (recKind x.inforce)).contains n)).filter s.noUsers

/-- R308: is teardown step `n` unfinished. -/
def tearWaits (s : State) (n : Nat) : Bool :=
  if n = 1 then (s.tearing 1).any (fun k => s.programBusy (recId (s.slot k).inforce)) else !(s.tearing n).isEmpty

/-- R308: the teardown steps in order, up to one that has to wait. -/
def tearDown (s : State) : State :=
  ((List.range 8).foldl (fun (r : State × Bool) i =>
    if r.2 then r
    else
      let s := (r.1.tearing (i + 1)).foldl (fun s k => s.tearSlot (i + 1) k) r.1
      (s, s.tearWaits (i + 1))) (s, false)).1

/-- R308: the creation steps in order, up to one that waits for a shootdown. -/
def createAll (s : State) : State :=
  ((List.range 8).foldl (fun (r : State × Bool) i =>
    if r.2 then r
    else
      let n := i + 1
      let s := if n = 8 then (r.1.slotsBy (fun x => x.job = 8)).foldl (fun s k => s.startSlot k) r.1
        else (r.1.slotsBy (fun x => x.job = 3 && createStep (recKind x.want) = n)).foldl (fun s k => s.createSlot k) r.1
      (s, s.recon.slots.any (fun e => e.2.job = 5))) (s, s.recon.slots.any (fun e => e.2.job = 5))).1

/-- R308: are objects still to be torn down. -/
def tearLeft (s : State) : Bool := s.recon.slots.any (fun e => e.2.job = 1 || e.2.job = 2 || e.2.job = 6 || e.2.job = 7)

end State

/-- R308 RECONCILE_PASS: a pass begins, or the present one goes on. -/
def execReconcilePass (s : State) : Out :=
  .next (if s.recon.root.isNone then s
    else
      let s := if s.passing then s else if s.recon.due || s.recon.slots.any (fun e => e.2.job = 4) then s.beginPass else s
      let s := if s.tearLeft then s.tearDown else s
      if s.tearLeft then s else s.createAll)

/-- R271 SHOOTDOWN: every access through the old translation has been performed: the mapping goes, or the new one is in force,
and the mark is written. A new range that another mapping has taken meanwhile is refused, and the old translation stands (R314). -/
def execShootdown (id : Nat) (s : State) : Out :=
  .next (match s.recon.slots.first (fun _ x => x.alive && recKind x.inforce = 3 && recId x.inforce = id), s.maps.find id with
    | some (k, x), some m =>
      if m.conv || !s.landed x.inflight || s.gateHolds m then s
      else if x.job = 5 then
        let new := Mapping.ofRec x.want x.hv
        if let some c := s.mapRefused k new x.want then
          let s := (s.abandon k).conflict k c x.want
          s.freePages ((State.mapPages { new with pages := [] }).filter (fun p => !s.mapped p))
        else
        let n := if new.stage2 && new.tkind = 3 then new.len / 65536 else 0
        let old := m.tables.length - State.tableCount id x.want
        let ok := s.mapReady new
        let s := { s with maps := s.maps.put id { new with pages := m.pages.take n, tables := m.tables.drop old, conv := ok } }.leavePages
          { m with pages := if m.stage2 && (m.tkind = 3 || new.tkind = 3) then m.pages.drop n else [], tables := m.tables.take old, tkind := if m.tkind = 0 then 0 else 3 }
        if ok then s.settled k else s.setSlot k (fun x => { x with job := 4, inforce := x.want })
      else if x.job = 1 || x.job = 2 || x.job = 6 then ({ s with maps := s.maps.del id }.leavePages m).tornSlot k
      else s
    | _, _ => s)

/-- R278 CLEAN_POOL_GRANT: the allocation at the head of a die's requests is tried again. It keeps its place while a pass has yet to come to it,
and while its TFORK waits, on a core or saved. -/
def execCleanPoolGrant (die : Nat) (s : State) : Out :=
  .next (match (s.die die).waitq with
    | [] => s
    | id :: _ =>
      if 2 ^ 40 ≤ id then
        let b := (id - 2 ^ 40) / 64
        if !(s.block b).ended && (match (s.beamAt b (id % 64)).spark with | .reserved _ _ => true | _ => false) then s else s.noWait id
      else
        match s.recon.slots.first (fun _ x => (x.job = 3 || x.job = 4) && recId x.want = id) with
        | some (k, x) => if x.job = 4 then s.createSlot k else s
        | none => s.noWait id)

/-- R337 PROGRAM_LOAD_RESUME: a load that waits goes on where it stopped. -/
def execProgramLoadResume (id : Nat) (s : State) : Out :=
  .next (match s.recon.slots.first (fun _ x => x.job = 4 && recKind x.want = 4 && recId x.want = id) with
    | some (k, _) => s.createSlot k
    | none => s)

/-- R328 TENANT_STOP: every block of the tenant has ended and its logs and rings stand written: the mark, then its resources
are released. -/
def execTenantStop (id : Nat) (s : State) : Out :=
  .next (match s.recon.slots.first (fun _ x => x.alive && recKind x.inforce = 1 && recId x.inforce = id) with
    | some (k, x) =>
      let tid := recTenant x.inforce
      if s.recon.stopping.contains id && s.noUsers k && (s.blocksOf (fun b => s.tenantOf b = tid)).isEmpty && !s.anyTask (fun t => t.tenant = tid) && (s.unanswered tid).isEmpty then
        let s := { s.tornSlot k with credits := s.credits.filter (fun c => c.tenant ≠ tid) }
        { s with
          tenants := s.tenants.del tid
          dies := s.dies.mapV (fun _ d => { d with deferred := d.deferred.filter (fun e => e.1 ≠ tid) })
          recon := { s.recon with stopping := s.recon.stopping.filter (· != id) } }
      else s
    | none => { s with recon := { s.recon with stopping := s.recon.stopping.filter (· != id) } })

/-- R330 PACKAGE_RESET: the state of the next reset. The hard-repair lists have been fused; host memory is the host's, and the
agenda and the counter of free values are the model's own. -/
def execPackageReset (s : State) : Out := .next { State.afterReset (s.resets + 1) with host := s.host, agenda := s.agenda, free := s.free, rr := s.rr }

end Sys2Proof.Machine
end

