-- ==== Sys2Proof/Machine/Fabric.lean ====
section
/-! DEFINITION. Rhamen: what a home does with a request (R351 to R357), the answers, peers (R358), links (R350, R352, R353),
fabric management (R354), and the host's accesses through CXL (R298, R166). -/

namespace Sys2Proof.Machine
namespace State

/-- R361: the message is dropped and counted. -/
def dropMsg (s : State) : State := s.setFab (fun f => { f with dropped := f.dropped + 1 })

/-! ### Links -/

/-- R352: the xoff bits that a port shows: set with 32 flits free or fewer, cleared again at 48. -/
def xoffBits (l : Link) : BitVec 4 :=
  let used (v : Nat) : Nat := (l.rx.get v []).length
  BitVec.ofNat 4 ((List.range 4).foldl (fun n v => if 32 ≤ used v || (16 < used v && l.xoffOut.getLsbD v) then n + 2 ^ v else n) 0)

/-- R352: a link whose buffers have changed: its xoff bits follow, and an idle flit tells the partner of a change. -/
def shown (l : Link) : Link := if xoffBits l = l.xoffOut then l else { l with xoffOut := xoffBits l }.sendIdle

/-- R352: changes the buffer of a port's channel. -/
def setRx (p v : Nat) (f : List Flit → List Flit) (s : State) : State := s.setLink p (fun l => shown { l with rx := l.rx.put v (f (l.rx.get v [])) })

/-- R350, R351: the message at the front of a buffer, if all of its flits are there, with their number. -/
def frontMsg (fs : List Flit) : Option (FMsg × Nat) :=
  match fs with
  | [] => none
  | f :: _ =>
    let n := flitsOf (fmsgOfBytes (f.body ++ List.replicate 128 0))
    if f.head && n ≤ fs.length then some (fmsgOfBytes ((fs.take n).flatMap (·.body)), n) else none

/-- R353: the flits of the whole messages of a buffer: those of one that is not complete go with the link's retraining. -/
def wholeMsgs : Nat → List Flit → List Flit
  | 0, _ => []
  | k + 1, fs => match frontMsg fs with | some (_, n) => fs.take n ++ wholeMsgs k (fs.drop n) | none => []

/-- R350: does a buffer end in a message of which flits are still to come. -/
def openMsg (fs : List Flit) : Bool := (wholeMsgs fs.length fs).length != fs.length

/-- R358: the flits of a buffer but for the messages from a node. -/
def dropFrom (node : Nat) : Nat → List Flit → List Flit
  | 0, _ => []
  | k + 1, fs =>
    match frontMsg fs with
    | some (m, n) => (if m.src.toNat = node then [] else fs.take n) ++ dropFrom node k (fs.drop n)
    | none => match fs with | f :: _ => if (fmsgOfBytes f.body).src.toNat = node then [] else fs | [] => []

/-- R353: the port and channel at whose front a message stands. -/
def portOf (s : State) (m : FMsg) : Option (Nat × Nat × Nat) :=
  (s.fab.links.flatMap (fun l => l.2.rx.map (fun b => (l.1, b.1, b.2)))).findSome? (fun b =>
    match frontMsg b.2.2 with | some (x, n) => if x = m then some (b.1, b.2.1, n) else none | none => none)

/-- A node that is reached through a port. -/
def nodeOn (s : State) (port : Nat) : Nat := match s.fab.routes.first (fun _ p => p = port) with | some e => e.1 | none => 0

/-- R352: the partner's xoff bits are seen: no flit starts on a channel whose bit is set, and what waited goes on where one is cleared. -/
def xoffSeen (port : Nat) (bits : BitVec 4) (s : State) : State :=
  let new := bits &&& ~~~(s.link port).xoffIn
  let s := s.setLink port (fun l => { l with xoffIn := bits })
  ((List.range 4).foldl (fun s v => if new.getLsbD v then s.tapDev 0 0 0 0x39 (BitVec.ofNat 32 port) (BitVec.ofNat 32 (s.nodeOn port)) (BitVec.ofNat 32 v) 0 else s) s).pump

/-- R353: drops the flits that `ack` covers from those kept for a replay. -/
def ackFlits (ack : BitVec 11) (l : List Flit) : List Flit := l.filter (fun f => !((ack - f.lseq).toNat < 1024))

/-- The HITs and UNWATCHes, which have no answer, among the messages whose flits are not acknowledged, but for those to a LOST node, and the
UNWATCHes of lines for which a WATCH has followed. -/
def unansweredIn (s : State) (l : Link) : List FMsg :=
  (l.unacked.filter (·.head)).map (fun f => fmsgOfBytes f.body) |>.filter (fun m =>
    (m.op = 7 || (m.op = 8 && !s.fab.watching.any (fun w => w.1 = m.dst.toNat && w.2.1 = m.addr.toNat / 64 * 64))) && (s.peer m.dst.toNat).state ≠ 3)

/-- R353, R355: a port retrains: its unacknowledged flits are dropped, its sequence numbers begin again, and the messages that they carried
are sent again where nothing else repeats them (log entry 51, DEDUCED). -/
def retrain (port : Nat) (s : State) : State :=
  let again := s.unansweredIn (s.link port)
  let s := s.setLink port (fun l => shown { l with retrains := l.retrains + 1, unacked := [], nak := false, expect := 0, nextSeq := 0, acked := 2047, rx := l.rx.mapV (fun _ b => wholeMsgs b.length b) })
  s.resend (fun m => s.fab.routes.find m.dst.toNat = some port) again

/-- R353: the flits after `ack` are sent again. -/
def replayFlits (port : Nat) (s : State) : State :=
  (s.link port).unacked.foldl (fun s f => s.tapDev 0 0 0 0x38 (BitVec.ofNat 32 port) (BitVec.ofNat 32 (s.nodeOn port)) (f.vc.setWidth 32) 0) (s.setLink port Link.replay)

/-- R358: the node from which a flit comes: the sender of the message that it belongs to, the last that began on its channel. -/
def flitFrom (s : State) (port : Nat) (f : Flit) : Option Nat :=
  ((((s.link port).rx.get f.vc.toNat []) ++ [f]).filter (·.head)).getLast?.map (fun h => (fmsgOfBytes h.body).src.toNat)

/-- R358: a node is heard. -/
def heard (node : Nat) (s : State) : State := if (s.peer node).node = node then s.setPeer node (fun p => { p with last := s.now }) else s

/-- R350, R352, R353: link control on a flit: a bad CRC or a gap asks for a replay, a nak replays what is kept, and a flit to a full buffer
is a link error; an idle flit carries the answer. A data flit without its message's head, which went with a lost node, is dropped (R358). A good flit stands in the buffer of its channel until its message is served; those of VC 3
go to the firmware at once (log entry 51, DEDUCED). -/
def linkFlit (port : Nat) (f : Flit) (s : State) : State :=
  if !crcGood f then s.setLink port (fun l => { l with nak := true }.sendIdle)
  else
    let s := s.setLink port (fun l => { l with unacked := ackFlits f.ack l.unacked })
    let s := (if f.nak then s.replayFlits port else s).xoffSeen port f.xoff
    if f.idle then s
    else if f.lseq.toNat ≠ (s.link port).expect then s.setLink port (fun l => { l with nak := true }.sendIdle)
    else if 64 ≤ ((s.link port).rx.get f.vc.toNat []).length then s.retrain port
    else
      let stray := !f.head && !(f.vc = 3) && !openMsg ((s.link port).rx.get f.vc.toNat [])
      let s := match (if stray then none else s.flitFrom port f) with | some n => s.heard n | none => s
      ((s.setLink port (fun l => { l with expect := (l.expect + 1) % 2048, acked := f.lseq.toNat, nak := false })).setRx port f.vc.toNat (fun b => if f.vc = 3 then [] else if stray then b else b ++ [f])).setLink port Link.sendIdle

/-- R353: the message at the front of a channel of a port is served: its flits leave the buffer. One that stands at no front is not due
(log entry 55, DESIGN CHOICE). -/
def serve (m : FMsg) (k : State → State) (s : State) : State :=
  match s.portOf m with
  | none => s
  | some (p, v, n) => k (s.setRx p v (fun b => b.drop n))

/-- R351, R358: a message from a node is served. One with a reserved field that is not zero, for another node or domain, or of a lost
incarnation is dropped. -/
def arrive (op : Nat) (m : FMsg) (k : State → State) (s : State) : State :=
  if m.op.toNat ≠ op then s
  else s.serve m (fun s =>
    let src := m.src.toNat
    if m.reserved || (op ≠ 3 && m.aop ≠ 0) || (op ≠ 4 && m.poison) || 128 < m.size.toNat then s.dropMsg
    else if s.fab.node ≠ some m.dst || m.src.toNat / 64 ≠ m.dst.toNat / 64 then s.dropMsg
    else
      let p := s.peer src
      if p.node = src && p.state = 3 && op ≠ 9 then s else k s)

/-! ### Requests at the home -/

/-- R355: the answer to a request. -/
def replyTo (s : State) (m : FMsg) (op : Nat) (data : List Byte) (poison : Bool) : FMsg :=
  { s.message op 0 (if op = 10 then 1 else data.length) m.src.toNat m.tag.toNat m.addr.toNat data with poison := poison }

/-- R355, R370: the range of a request lies in allocatable HBM and is open to the requester. -/
def openTo (s : State) (m : FMsg) (n : Nat) : Bool :=
  physOk m.addr.toNat n && s.fab.opened.any (fun r => r.1 = m.src.toNat && r.2.1 ≤ m.addr.toNat && m.addr.toNat + n ≤ r.2.1 + r.2.2)

/-- R355: the kept answers of a requester, oldest first. -/
def keptOf (s : State) (src : Nat) : Tab FMsg := s.fab.kept.filter (fun e => e.1 / 65536 = src)

/-- R355: performs a request once: a repeated tag has its kept answer; the last 65,536 of a requester are kept (log entry 51, DEDUCED). -/
def once (m : FMsg) (k : State → FMsg × State) (s : State) : State :=
  let key := 65536 * m.src.toNat + m.tag.toNat
  let mine := s.keptOf m.src.toNat
  let oldest := 65536 ≤ mine.length && (match mine with | e :: _ => e.1 = key | [] => false)
  match (if oldest then none else mine.find key) with
  | some a => s.send a
  | none =>
    let (a, s) := k s
    let s := s.setFab (fun f => { f with kept := f.kept.del key ++ [(key, a)] })
    (if 65536 < (s.keptOf m.src.toNat).length then s.setFab (fun f => { f with kept := match mine with | e :: _ => f.kept.del e.1 | [] => f.kept }) else s).send a

/-- R351: ERR reason 1. -/
def refusal1 (s : State) (m : FMsg) : FMsg := s.replyTo m 10 [1] false

/-! ### Peers -/

/-- R284: the peer state family. -/
def tapPeer (node st : Nat) (s : State) : State :=
  s.tapDev 0 0 0 0x3A (BitVec.ofNat 32 (s.fab.routes.get node 0)) (BitVec.ofNat 32 node) (BitVec.ofNat 32 st) 0
/-- Sets a peer's state. -/
def setPeerState (node st : Nat) (s : State) : State := (s.setPeer node (fun p => { p with state := st, since := s.now })).tapPeer node st

/-- R358, R308: a node is LOST: its flits, registrations and kept answers go, what was asked of it replays as not performed, and
every stage-2 mapping that names it is torn down, with what depends on it: its mark becomes STOPPED once they are gone. -/
def losePeer (node : Nat) (s : State) : State :=
  let s := s.setPeerState node 3
  let s := s.setFab (fun f => { f with
    out := f.out.filter (fun m => m.dst.toNat != node)
    sent := f.sent.filter (fun m => m.dst.toNat != node)
    turning := f.turning.filter (fun t => t.1 != node)
    bad := f.bad.filter (fun w => w.1 != node)
    watching := f.watching.filter (fun w => w.1 != node)
    links := f.links.mapV (fun p l => (if f.ports.getLsbD p then shown else id) { l with rx := l.rx.mapV (fun _ b => dropFrom node b.length b) })
    reqs := f.reqs.filter (fun e => e.2.msg.dst.toNat != node)
    kept := f.kept.filter (fun e => e.1 / 65536 != node)
    regs := f.regs.filter (fun r => r.1 != node) })
  let mine := s.maps.filter (fun e => e.2.stage2 && e.2.tkind = 2 && e.2.node = node)
  let ids := mine.map (fun e => e.1)
  let s := mine.foldl (fun s e => s.leavePages e.2) { s with maps := s.maps.filter (fun e => !(ids.contains e.1)) }
  ((s.recon.slots.filter (fun e => recKind e.2.now = 3 && ids.contains (recId e.2.now))).foldl (fun s e =>
    if !e.2.alive then (s.noWait (recId e.2.want)).setMark e.1 (fun x => { x with state := 6, job := 0 })
    else if e.2.job = 0 || e.2.job = 4 then (s.noWait (recId e.2.inforce)).setSlot e.1 (fun x => { x with job := 6 })
    else if e.2.job = 3 || e.2.job = 5 then s.setSlot e.1 (fun x => { x with job := 2 })
    else s) s).cascade |> fun s => s.rings.foldl (fun s e => if e.2.fresh || !e.2.pend.isEmpty then s.ringGo e.1 else s) s

/-- R355, R326: the answer to a request of this package: what nothing waits for is forgotten, and a line registered so is released (R357); a
ring's posting goes on, and so do the
requests that an old route held back. -/
def answerReq (m : FMsg) (s : State) : State :=
  let key := 65536 * m.src.toNat + m.tag.toNat
  let s := s.setFab (fun f => { f with reqs := f.reqs.upd key (fun r => if r.answer.isNone then { r with answer := some m } else r) })
  let s := match s.fab.reqs.find key with
    | some r =>
      (match r.who with
        | .gone _ =>
          let t := s.setFab (fun f => { f with reqs := f.reqs.del key })
          let l : Loc := { sp := .remote m.src.toNat, addr := r.msg.addr.toNat }
          if r.answer.isNone then s
          else if r.msg.op = 6 && m.op = 4 && !t.watched l then t.sendUnwatch m.src.toNat l.addr
          else t
        | .ring id => s.ringGo id
        | _ => s)
    | none => s
  s.pump

/-- R355: the home's own RAS count of what it served poisoned. -/
def countRas (m : FMsg) (bad : Bool) (s : State) : State :=
  if bad then s.setDie (m.addr.toNat / 2 ^ 38 % 4) (fun d => { d with ras := d.ras + 1 }) else s

end State

/-- R355 FABRIC_READ: performed at the home, and answered with DATA. -/
def execFabricRead (m : FMsg) (s : State) : Out :=
  .next (s.arrive 1 m (fun s => s.once m (fun s =>
    let n := m.size.toNat
    let l : Loc := { sp := .phys, addr := m.addr.toNat }
    if s.openTo m n then (s.replyTo m 4 (s.mem.bytes m.addr.toNat n) (s.poisonedAt l n), s.countRas m (s.poisonedAt l n)) else (s.refusal1 m, s))))

/-- R355 FABRIC_WRITE: performed at the home, and answered with ACK. -/
def execFabricWrite (m : FMsg) (s : State) : Out :=
  .next (s.arrive 2 m (fun s => s.once m (fun s =>
    let l : Loc := { sp := .phys, addr := m.addr.toNat }
    if s.openTo m m.data.length then (s.replyTo m 5 [] false, s.pokeAll l m.data) else (s.refusal1 m, s))))

/-- R355, R351 FABRIC_ATOMIC: a read-modify-write at the home, answered with the old value; a poisoned unit is not changed. -/
def execFabricAtomic (m : FMsg) (s : State) : Out :=
  .next (s.arrive 3 m (fun s => s.once m (fun s =>
    let n := if m.aop = 9 then m.size.toNat / 2 else m.size.toNat
    let l : Loc := { sp := .phys, addr := m.addr.toNat }
    if !s.openTo m n then (s.refusal1 m, s)
    else if s.poisonedAt l n then (s.replyTo m 4 (s.peek l n) true, s.countRas m true)
    else
      let old := s.peek l n
      let new := match Aop.ofCode m.aop.toNat with
        | some op => toBytes n (aopApply op (8 * n) (ofBytes old) (numAt m.data 0 n))
        | none => if old = m.data.take n then (m.data.drop n).take n else old
      (s.replyTo m 4 old false, s.poke l new))))

/-- R351, R355 FABRIC_DATA: the answer to a read, an atomic or a WATCH. -/
def execFabricData (m : FMsg) (s : State) : Out := .next (s.arrive 4 m (fun s => s.answerReq m))
/-- R356 FABRIC_ACK: the answer to a write. -/
def execFabricAck (m : FMsg) (s : State) : Out := .next (s.arrive 5 m (fun s => s.answerReq m))
/-- R351, R355 FABRIC_ERR: a refusal: reason 1 is no permission, reason 2 a full watch table. -/
def execFabricErr (m : FMsg) (s : State) : Out :=
  .next (s.arrive 10 m (fun s => (s.answerReq m).tapDev 0 0 0 0x3B (BitVec.ofNat 32 (s.fab.routes.get m.src.toNat 0)) (BitVec.ofNat 32 m.src.toNat) 1 0))

/-- R357 FABRIC_WATCH: the home registers the line and returns its value; a full table answers ERR reason 2. -/
def execFabricWatch (m : FMsg) (s : State) : Out :=
  .next (s.arrive 6 m (fun s => s.once m (fun s =>
    let line := m.addr.toNat / 64 * 64
    let src := m.src.toNat
    let mine (r : Nat × Nat × Nat × Bool) : Bool := r.1 = src && r.2.1 = line
    if !s.openTo m 1 then (s.refusal1 m, s)
    else if !s.fab.regs.any mine && 65536 ≤ s.fab.regs.length then (s.replyTo m 10 [2] false, s)
    else (s.replyTo m 4 (s.mem.bytes line 64) (s.poisonedAt { sp := .phys, addr := line } 64), (s.countRas m (s.poisonedAt { sp := .phys, addr := line } 64)).setFab (fun f => { f with regs := f.regs.filter (fun r => !mine r) ++ [(src, line, m.tag.toNat, false)] })))))

/-- R164, R357 FABRIC_HIT: the home's hit reaches the watches of the line, and a WATCH whose registration is on its way back, but for
those that were sent after the one that it answers (log entry 51, DESIGN CHOICE). -/
def execFabricHit (m : FMsg) (s : State) : Out :=
  .next (s.arrive 7 m (fun s =>
    let node := m.src.toNat
    let line := m.addr.toNat / 64 * 64
    let tags := State.hitReach s.fab.watching node line m.tag.toNat
    let s := s.setFab (fun f => { f with
      reqs := f.reqs.mapV (fun _ r => match r.who with
        | .watch _ _ => if r.msg.op = 6 && r.msg.dst = m.src && r.msg.addr.toNat / 64 * 64 = line && tags.contains r.msg.tag.toNat then { r with hit := true } else r
        | _ => r)
      watching := f.watching.filter (fun w => !(w.1 = node && w.2.1 = line && tags.contains w.2.2)) })
    s.hitTagged (some tags) { sp := .remote node, addr := line }))

/-- R357 FABRIC_UNWATCH: a registration ends. -/
def execFabricUnwatch (m : FMsg) (s : State) : Out :=
  .next (s.arrive 8 m (fun s => s.setFab (fun f => { f with regs := f.regs.filter (fun r => !(r.1 = m.src.toNat && r.2.1 = m.addr.toNat / 64 * 64)) })))

/-- R358 HEARTBEAT: UP on a new incarnation, or on the same one while RECOVERING, when what waited is sent again; a new
incarnation of a node not yet LOST makes it LOST (log entry 51, DEDUCED). -/
def execHeartbeat (m : FMsg) (s : State) : Out :=
  .next (s.arrive 9 m (fun s =>
    let node := m.src.toNat
    let p := s.peer node
    let inc := BitVec.ofNat 64 (numAt m.data 0 8)
    if p.node ≠ node || p.state = 0 then s
    else if p.state = 3 then
      if inc = p.inc then s else ((s.setPeerState node 1).setPeer node (fun p => { p with inc := inc })).pump
    else if inc ≠ p.inc then s.losePeer node
    else if p.state = 2 then (s.setPeerState node 1).resend (fun m => m.dst.toNat = node)
    else s))

/-- R358 HEARTBEAT_SEND: every 2 µs, to every configured node. -/
def execHeartbeatSend (s : State) : Out :=
  .next (if s.fab.node.isSome && s.fab.beat + 200 ≤ s.now then
      let s := s.setFab (fun f => { f with beat := s.now })
      s.fab.peers.foldl (fun s e => if e.2.state = 0 then s else s.send (s.message 9 0 8 e.2.node 0 0 (toBytes 8 s.fab.inc.toNat))) s
    else s)

/-- R358, R361 PEER_RECOVERING: nothing was heard of the node for 10 µs, or no route has led to it for 10 µs. -/
def execPeerRecovering (node : Nat) (s : State) : Out :=
  .next (
    let p := s.peer node
    let cut := match p.noRoute with | some t => decide (t + 1000 ≤ s.now) | none => false
    if p.node = node && p.state = 1 && (p.last + 1000 ≤ s.now || cut) then s.setPeerState node 2 else s)

/-- R358 PEER_LOST: the recovery limit has passed. -/
def execPeerLost (node : Nat) (s : State) : Out :=
  .next (
    let p := s.peer node
    if p.node = node && p.state = 2 && p.since + s.fab.limit ≤ s.now then s.losePeer node else s)

namespace State

/-- R355: the route to a node changes: new requests, those that have not been sent among them, wait while those of the old one are unanswered. -/
def turn (node : Nat) (s : State) : State :=
  let old := (s.unansweredTo node).filter (fun k => !s.fab.out.any (fun m => isRequest m.op.toNat && reqKey m = k))
  if old.isEmpty then s else s.setFab (fun f => { f with turning := f.turning.filter (fun t => t.1 != node) ++ [(node, old)] })
/-- R355: the route to a node is a port's. -/
def setRoute (node port : Nat) (s : State) : State :=
  let moved : Bool := match s.fab.routes.find node with | some p => p != port | none => false
  let s := if moved then s.turn node else s
  let s := s.setFab (fun f => { f with routes := f.routes.put node port })
  (if (s.peer node).node = node then s.setPeer node (fun p => { p with noRoute := none }) else s).pump

/-- R361: the routes of a port that is down move to another (R355), or end. -/
def moveRoutes (port : Nat) (s : State) : State :=
  let nodes := (s.fab.routes.filter (fun e => e.2 = port)).map (fun e => e.1)
  let again := s.unansweredIn (s.link port)
  let s := nodes.foldl (fun s n => s.turn n) s
  let s := s.setFab (fun f => { f with ports := f.ports &&& ~~~(BitVec.ofNat 16 (2 ^ (port % 16))) })
  let s := s.setLink port (fun l => { l with unacked := [] })
  let s := match (List.range 16).find? (fun p => s.fab.ports.getLsbD p) with
    | some q => s.setFab (fun f => { f with routes := f.routes.mapV (fun _ p => if p = port then q else p) })
    | none => nodes.foldl (fun s n => if (s.peer n).node = n then s.setPeer n (fun p => { p with noRoute := some s.now }) else s) (s.setFab (fun f => { f with routes := f.routes.filter (fun e => e.2 != port) }))
  s.resend (fun m => nodes.contains m.dst.toNat) again

end State

/-- R354, R355, R358, R359 FABRIC_MANAGEMENT: what the fabric manager and the trusted firmware set. -/
def execFabricManagement (c : FMgmt) (s : State) : Out :=
  .next (match c with
    | .assign node => s.setFab (fun f => { f with node := some node })
    | .route node port => if port < 16 then s.setRoute node port else s
    | .recoveryLimit ms => if 100 ≤ ms && ms ≤ 60000 then s.setFab (fun f => { f with limit := 100000 * ms }) else s
    | .configure node =>
      if (match s.fab.node with | some n => node / 64 ≠ n.toNat / 64 | none => true) || ((s.peer node).node = node && (s.peer node).state ≠ 0) then s
      else s.setPeer node (fun _ => { state := 3, node := node, last := s.now, since := s.now, noRoute := if (s.fab.routes.find node).isSome then none else some s.now })
    | .openRange node base len => s.setFab (fun f => { f with opened := f.opened ++ [(node, base, len)] })
    | .train port =>
      if s.fab.ports.getLsbD (port % 16) then s
      else ((s.setFab (fun f => { f with ports := f.ports ||| BitVec.ofNat 16 (2 ^ (port % 16)) })).setLink (port % 16) (fun l => State.shown { tx := l.tx, retrains := l.retrains, rx := l.rx.mapV (fun _ b => State.wholeMsgs b.length b) })).pump)

/-- R353 LINK_REPLAY: a flit with a bad CRC, or a gap. -/
def execLinkReplay (port : Nat) (f : Flit) (s : State) : Out := .next (s.linkFlit port f)

/-- R353 LINK_RETRAIN: a good flit to a full buffer: the port retrains and drops its unacknowledged flits. -/
def execLinkRetrain (port : Nat) (f : Flit) (s : State) : Out := .next (s.linkFlit port f)

/-- R352 XOFF: the partner's bits: no flit starts on a channel whose bit is set. -/
def execXoff (port : Nat) (bits : BitVec 4) (s : State) : Out := .next (s.xoffSeen port bits)

/-- R361 PORT_DOWN: the port carries nothing, and its routes move to other ports. -/
def execPortDown (port : Nat) (s : State) : Out := .next (s.moveRoutes port)

/-- R361 UNKNOWN_OP_MESSAGE: a message of an unknown op, or with a reserved field that is not zero, is dropped and counted. -/
def execUnknownOpMessage (m : FMsg) (s : State) : Out :=
  .next (if m.op.toNat = 0 || 10 < m.op.toNat || m.reserved then s.serve m State.dropMsg else s)

/-- R298 HOST_CXL_MEM_ACCESS: a host access to device memory, performed coherently; a load changes nothing here. -/
def execHostCxlMemAccess (addr : Nat) (store : Bool) (data : List Byte) (s : State) : Out :=
  .next (if store && physOk addr data.length then s.pokeAll { sp := .phys, addr := addr } data else s)

/-- R166, R298 CXL_CACHE_SNOOP: a host store to host memory: its bytes, and the hits of the line's watches. -/
def execCxlCacheSnoop (addr : Nat) (data : List Byte) (s : State) : Out :=
  .next (s.pokeAll { sp := .host, addr := addr } data)

end Sys2Proof.Machine
end

