-- ==== Sys2Proof/Machine/LaneCtl.lean ====
section
/-! DEFINITION. Control words of the lane stream (R127 to R130), and the starts of regions and fragments. Each acts on the
issuing unit; the flow is `jumped` where the word itself sets the unit's PC. -/

namespace Sys2Proof.Machine
namespace State

/-- The issuing unit. -/
def myUnit (s : State) : LUnit := (s.me.unit s.cur.unit).getD {}
/-- Replaces the issuing unit; its held word is done. -/
def putUnit (u : Nat) (y : Option LUnit) (s : State) : State := s.setMe (fun x => x.setUnit u y)

/-- R127: target and token of a control word. -/
def ctlTarget (x : LaneOp) : W64 := BitVec.ofNat 64 (x.imm.toNat % 2 ^ 20)
def ctlToken (x : LaneOp) : BitVec 12 := (x.imm >>> 20).setWidth 12

/-- R127, R128: the lanes of live(act) that the word selects. -/
def selected (s : State) (x : LaneOp) : W32 :=
  let p := s.rp (x.a.toNat - 336)
  s.cur.act &&& (if x.mb 0 1 = 1 then ~~~p else p)

/-- R128 to R130: is a target outside `.lcode`. -/
def offCode (s : State) (t : W64) : Bool := !decide (t.toNat < (s.codeOf s.cur.blk).lcode.length)

/-- R128: does the issuing unit hold a slot while the other slot is empty. -/
def slotFree (s : State) : Bool :=
  match s.cur.unit with
  | 0 => s.me.shade.isNone
  | 1 => s.me.lit.isNone
  | _ => false

end State

/-- R128 LBR. -/
def execLbr (x : LaneOp) (s : State) : Out :=
  let u := s.cur.unit
  let y := s.myUnit
  let tgt := State.ctlTarget x
  let tok := State.ctlToken x
  let t := s.selected x
  let f := y.mask &&& ~~~t
  .next (
    if t ≠ 0 && s.offCode tgt then s.trapLane (State.targetCause 0 6 tgt)
    else if t = 0 then (s.putUnit u (some { pc := y.pc + 1, mask := y.mask, token := tok })).flow .jumped
    else if f = 0 then (s.putUnit u (some { pc := tgt, mask := y.mask, token := tok })).flow .jumped
    else if s.slotFree && s.pinnedRec.isNone then
      (((s.putUnit 1 (some { pc := tgt, mask := t, token := tok })).putUnit 0 (some { pc := y.pc + 1, mask := f, token := tok })).tapLanes s.cur.blk s.cur.beam 0x0C y).flow .jumped
    else
      let taken : LUnit := { pc := tgt, mask := t, token := tok }
      let fall : LUnit := { pc := y.pc + 1, mask := f, token := tok }
      let (d, k) := if popc t ≤ popc f then (taken, fall) else (fall, taken)
      s.detach d (fun s => (s.putUnit u (some k)).flow .jumped))

/-- R129 LBRK: the staying lanes keep the unit's token. -/
def execLbrk (x : LaneOp) (s : State) : Out :=
  let u := s.cur.unit
  let y := s.myUnit
  let tgt := State.ctlTarget x
  let tok := State.ctlToken x
  let t := s.selected x
  let k := y.mask &&& ~~~t
  .next (
    if t ≠ 0 && s.offCode tgt then s.trapLane (State.targetCause 0 6 tgt)
    else if t = 0 then (s.putUnit u (some { pc := y.pc + 1, mask := y.mask, token := y.token })).flow .jumped
    else if k = 0 then (s.putUnit u (some { pc := tgt, mask := y.mask, token := tok })).flow .jumped
    else if s.slotFree && s.pinnedRec.isNone then
      (((s.putUnit (1 - u) (some { pc := tgt, mask := t, token := tok })).putUnit u (some { pc := y.pc + 1, mask := k, token := y.token })).tapLanes s.cur.blk s.cur.beam 0x0C y).flow .jumped
    else
      s.detach { pc := tgt, mask := t, token := tok } (fun s => (s.putUnit u (some { pc := y.pc + 1, mask := k, token := y.token })).flow .jumped))

/-- R130 LJMP. -/
def execLjmp (x : LaneOp) (s : State) : Out :=
  let y := s.myUnit
  let tgt := State.ctlTarget x
  .next (if s.offCode tgt then s.trapLane (State.targetCause 0 6 tgt)
    else (s.putUnit s.cur.unit (some { pc := tgt, mask := y.mask, token := y.token })).flow .jumped)

/-- R130 LJOIN: passes through, or waits; the arrival that completes the set merges it. -/
def execLjoin (x : LaneOp) (s : State) : Out :=
  let u := s.cur.unit
  let y := s.myUnit
  .next (if y.token ≠ State.ctlToken x then s.flow .go
    else
      match (s.putUnit u (some { y with join := true, held := none })).tryJoin s.cur.blk s.cur.beam u with
      | .error c => s.trapLane c
      | .ok t => t.flow .jumped)

/-- R130 LEND: the unit ends. -/
def execLend (_x : LaneOp) (s : State) : Out := .next ((s.putUnit s.cur.unit none).flow .jumped)

/-- R130 LKILL: retires the lanes of live(act); no register changes. -/
def execLkill (_x : LaneOp) (s : State) : Out :=
  let y := s.myUnit
  let m := y.mask &&& ~~~s.cur.act
  let t := (s.setMe (fun b => { b with retired := b.retired ||| s.cur.act })).tapLanes s.cur.blk s.cur.beam 0x0F { y with mask := s.cur.act }
  .next (if m = 0 then (t.putUnit s.cur.unit none).flow .jumped else (t.putUnit s.cur.unit (some { y with mask := m })).flow .go)

/-- R130 LNOP. -/
def execLnop (_x : LaneOp) (s : State) : Out := .next (s.flow .go)

/-- R82 REGION_START: the lit slot takes the region's start, every lane neither dead nor retired, and token 0. With no such
lane the region ends at once (R161). -/
def execRegionStart (blk beam : Nat) (s : State) : Out :=
  let x := s.beamAt blk beam
  .next (
    match x.regions with
    | r :: _ =>
      if s.onCore blk && (s.block blk).halt.isNone && !x.exited && !x.running then
        let m := ~~~x.dead &&& ~~~x.retired
        if m = 0 then s.setBeam blk beam (fun x => { x with regions := x.regions.drop 1 })
        else s.setBeam blk beam (fun x => { x with running := true, lit := some { pc := r.start, mask := m, token := 0 }, shade := none })
      else s
    | [] => s)

/-- R146 FRAGMENT_FIRST_ISSUE: the scheduler takes up a detached fragment, whose record is written; it may issue (log entry 35, DEDUCED). -/
def execFragmentFirstIssue (blk beam rec : Nat) (s : State) : Out :=
  .next (if s.onCore blk && (s.block blk).halt.isNone then
      s.setBeam blk beam (fun x => { x with frags := x.frags.upd rec (fun y => { y with queued := false }) })
    else s)

/-- R132 FRAGMENT_RECORD_CLEAR: a held clear is attempted. -/
def execFragmentRecordClear (blk beam rec : Nat) (s : State) : Out :=
  .next (if (s.beamAt blk beam).clears.contains rec then s.clearRecord blk beam rec else s)

end Sys2Proof.Machine
end

