-- ==== Sys2Proof/Machine/LaneMem.lean ====
section
/-! DEFINITION. The memory words of the lane stream (R147 to R155): one access per live active lane, in ascending order,
with faults and replay (R159, R160), errors (R161), and remote lanes (R355). -/

namespace Sys2Proof.Machine

/-- A lane memory operation: its kind as R218 codes it (0 load, 1 store, 2 read-modify-write), width in bytes, the fabric
operation and its aop, what it makes of a lane's access (the number to store from the number read), and whether it carries no ordering. -/
structure LaneKind where
  kind : Nat
  n : Nat
  fop : Nat
  aop : Nat
  operand : LaneAcc → List Byte
  put : LaneAcc → Nat → Nat
  plain : Bool

/-- R19: a part of a lane's access, within one 8-byte unit: where it goes, the address it is made for, its first byte and its length. -/
structure LanePart where
  l : Loc
  page : Option (Nat × Nat × Nat)
  va : Nat
  off : Nat
  n : Nat

/-- How the lanes of a word have come out so far; `behind` are the units that an unperformed access of a lower lane names (R150). -/
structure LaneRun where
  s : State
  unfinished : W32 := 0
  dead : W32 := 0
  pages : List Nat := []
  posted : Bool := false
  ready : Bool := false
  flying : Bool := false
  consumed : Option (W64 × Option Loc) := none
  refused : W32 := 0
  gateFull : Bool := false
  behind : List Loc := []

/-- How the parts of a lane's access have come out so far: what was read, whether it was poisoned, whether a part waits for an answer, or
for space in the dirty log, or was refused. -/
structure PartRun where
  s : State
  bs : List Byte := []
  poison : Bool := false
  wait : Bool := false
  full : Bool := false
  err : Bool := false

/-- The 8-byte unit of a location. -/
def Loc.unit (l : Loc) : Loc := { l with addr := l.addr / 8 * 8 }

namespace State

/-- R149, R151: writes what was read to a lane's destination: a pair, or the value extended. -/
def laneDst (x : LaneOp) (n : Nat) (sx : Bool) (i v : Nat) (s : State) : State :=
  if n = 8 then s.writePair x.d.toNat i (BitVec.ofNat 64 v)
  else s.writeV x.d.toNat i (if sx then w32 (signedOf (8 * n) v) else BitVec.ofNat 32 v)

/-- What the lane's access comes to where its mapping cannot be used: one fault record per page (R159). -/
def laneFault (b j page mp : Nat) (gpa : Option Nat) (a : W64) (bit : W32) (r : LaneRun) : LaneRun :=
  let r := { r with unfinished := r.unfinished ||| bit }
  if r.pages.contains page then r
  else { r with pages := r.pages ++ [page], posted := true, s := if r.posted then r.s else r.s.laneFaultPost b j a.toNat mp gpa }

/-- Where a lane's access goes: to the block that a cluster-aperture address named when the word issued (R18). -/
def laneLocate (s : State) (i : Nat) (a : LaneAcc) (addr : W64) (write : Bool) : Xl :=
  match a.dest with
  | some t => .ok { sp := .scratch t, addr := scratchOff addr } none
  | none => s.locate s.cur.blk s.cur.beam i addr write

/-- The requester of a lane of the word being issued. -/
def whoLane (s : State) (i : Nat) : ReqWho := .lane s.cur.blk s.cur.beam s.cur.unit i
/-- R271: has a lane's access been sent (not only asked for, `State.probe`). -/
def laneSent (s : State) (i : Nat) : Bool := s.fab.reqs.any (fun e => e.2.who == s.whoLane i && e.2.va < 2 ^ 64)

/-- R355: the fabric operation that a part of an access is: all of it, or the READ or WRITE of one of two (R19). -/
def partOp (k : LaneKind) (single : Bool) : Nat := if single then k.fop else k.kind + 1
/-- The bytes that the operation carries for the `n` bytes from `off` of an access. -/
def partData (k : LaneKind) (a : LaneAcc) (single : Bool) (off n : Nat) : List Byte :=
  if single then k.operand a else if k.kind = 0 then [] else ((k.operand a).drop off).take n

/-- Where a part of a lane's access goes. One that has been sent goes where it went: no translation is made again (R271). -/
def partAt (k : LaneKind) (a : LaneAcc) (i : Nat) (single : Bool) (off n : Nat) (s : State) : Xl :=
  match s.asked (s.whoLane i) (partOp k single) (a.addr.toNat + off) (askSize n (partData k a single off n)) with
  | some (l, _) => .ok l none
  | none => s.laneLocate i a (a.addr + BitVec.ofNat 64 off) (k.kind != 0)

/-- R19: the parts of a lane's access, or why it is not made. -/
def laneParts (k : LaneKind) (a : LaneAcc) (i : Nat) (s : State) : Except Xl (List LanePart) :=
  match s.splitAt s.cur.blk s.cur.beam i a.addr k.n with
  | none => (match s.partAt k a i true 0 k.n with | .ok l page => .ok [{ l := l, page := page, va := a.addr.toNat, off := 0, n := k.n }] | x => .error x)
  | some n =>
    match s.partAt k a i false 0 n with
    | .ok l page =>
      (match s.partAt k a i false n (k.n - n) with
        | .ok l2 page2 => .ok [{ l := l, page := page, va := a.addr.toNat, off := 0, n := n }, { l := l2, page := page2, va := a.addr.toNat + n, off := n, n := k.n - n }]
        | x => .error x)
    | x => .error x

/-- R271, R355: a lane's access to another package, its parts in order: each is sent once, and no part in this package is performed. -/
def sendParts (k : LaneKind) (a : LaneAcc) (i : Nat) (ps : List LanePart) (s : State) : PartRun :=
  let who := s.whoLane i
  let op := partOp k (ps.length = 1)
  ps.foldl (fun r p =>
    let data := partData k a (ps.length = 1) p.off p.n
    let one : Rem → PartRun
      | .wait t => { r with s := t, wait := true }
      | .err _ => { r with err := true }
      | .ok bs poison => { r with bs := r.bs ++ bs.take p.n, poison := r.poison || poison }
    match p.l.sp with
    | .remote node =>
      (match r.s.asked who op p.va (askSize p.n data) with
        | some (_, x) => one x
        | none =>
          if k.kind = 0 then one (r.s.remote who op k.aop node p.l.addr p.n data p.va)
          else if r.s.dirtyFull p.page (some r.s.laneWriter) then { r with s := r.s.parkWrite r.s.cur.blk r.s.cur.beam p.va p.page r.s.laneWriter, full := true }
          else one (r.s.remoteStore who op k.aop node p.l.addr p.n data p.page 0 (r.s.cidOf (r.s.ctxOf r.s.cur.blk)) none p.va))
    | _ => { r with bs := r.bs ++ List.replicate p.n 0 }) ({ s := s } : PartRun)

/-- R235, R355: does a part of an access go to another package. -/
def farParts (ps : List LanePart) : Bool := ps.any (fun p => match p.l.sp with | .remote _ => true | _ => false)

/-- R239: a gated store of a lane: its units enter the gate, and its address, size and data the lane's signature (R241). -/
def laneGate (k : LaneKind) (a : LaneAcc) (i : Nat) (ps : List LanePart) (r : LaneRun) : LaneRun :=
  let bs := toBytes k.n (k.put a 0)
  let b := r.s.cur.blk
  match ps.foldl (fun q p => q.bind (fun s => s.gateBytes b p.l p.page 0 ((bs.drop p.off).take p.n))) (some r.s) with
  | none => { r with gateFull := true }
  | some s => { r with s := s.setMe (fun x => { x with lsig := x.lsig.put i (crc64 (x.lsig.get i 0) (sigRecord a.addr bs)) }) }

/-- A lane's access in this package, performed as one, or, a plain store that `cur.later` names, left to be performed (R84, R150; log entry 20, DESIGN CHOICE). -/
def laneHere (k : LaneKind) (dst : Nat → Nat → State → State) (a : LaneAcc) (i : Nat) (ps : List LanePart) (r : LaneRun) : LaneRun :=
  let b := r.s.cur.blk
  let j := r.s.cur.beam
  let write := k.kind != 0
  let s := ps.foldl (fun s p => s.performAt b j (some i) p.l p.n) r.s
  if k.kind != 1 && ps.any (fun p => s.poisonedAt p.l p.n) then { r with s := s, dead := r.dead ||| laneBit i, consumed := r.consumed.orElse (fun _ => some (a.addr, (ps.find? (fun p => s.poisonedAt p.l p.n)).map (·.l))) }
  else
    match (if write then ps.find? (fun p => s.dirtyFull p.page (some s.laneWriter)) else none) with
    | some p => { r with s := s.parkWrite b j p.va p.page s.laneWriter, unfinished := r.unfinished ||| laneBit i, ready := true }
    | none =>
      let old := ofBytes (ps.flatMap (fun p => s.view b p.l p.n))
      let bs := toBytes k.n (k.put a old)
      let part (p : LanePart) : List Byte := (bs.drop p.off).take p.n
      if !write then { r with s := dst i old s }
      else if k.kind = 1 && s.cur.later.getLsbD i && !(a.dest = some b) then
        let s := ps.foldl (fun s p => s.logDirty p.page 0 (s.cidOf (s.ctxOf b))) s
        { r with s := s.setMe (fun x => { x with late := x.late ++ ps.map (fun p => { lane := some i, loc := p.l, data := part p }) }) }
      else { r with s := dst i old (ps.foldl (fun s p => s.store b 0 p.l p.page (part p)) s) }

/-- A lane's access of which a part goes to another package. Those parts are sent before any other is performed. -/
def laneFar (k : LaneKind) (dst : Nat → Nat → State → State) (a : LaneAcc) (i : Nat) (ps : List LanePart) (r : LaneRun) : LaneRun :=
  let bit := laneBit i
  let b := r.s.cur.blk
  let q := r.s.sendParts k a i ps
  if q.err then { r with refused := r.refused ||| bit }
  else if q.wait || q.full then { r with s := q.s, unfinished := r.unfinished ||| bit, ready := true, flying := r.flying || q.wait }
  else
    let here := ps.filter (fun p => !farParts [p])
    let poison := q.poison || (k.kind = 0 && here.any (fun p => q.s.poisonedAt p.l p.n))
    if poison then { r with s := q.s, dead := r.dead ||| bit, consumed := r.consumed.orElse (fun _ => some (a.addr, (here.find? (fun p => q.s.poisonedAt p.l p.n)).map (·.l))) }
    else if k.kind = 1 then laneHere k dst a i here { r with s := q.s }
    else
      let bs := ps.flatMap (fun p => if farParts [p] then q.s.seen b p.l ((q.bs.drop p.off).take p.n) else (q.s.performAt b q.s.cur.beam (some i) p.l p.n).view b p.l p.n)
      { r with s := dst i (ofBytes bs) (here.foldl (fun s p => s.performAt b s.cur.beam (some i) p.l p.n) q.s) }

/-- One lane's access, performed where it can be. `dst` writes what a load or read-modify-write read. One that `cur.later` leaves for later
holds back the accesses of higher lanes to its unit. -/
def laneOne (k : LaneKind) (dst : Nat → Nat → State → State) (accs : Tab LaneAcc) (r : LaneRun) (i : Nat) : LaneRun :=
  let a := accs.get i default
  match r.s.laneParts k a i with
  | .error (.fault page mp gpa) => laneFault r.s.cur.blk r.s.cur.beam page mp gpa a.addr (laneBit i) r
  | .error _ => { r with unfinished := r.unfinished ||| laneBit i, ready := true }
  | .ok ps =>
    if k.kind != 0 && ps.any (fun p => r.s.gated r.s.cur.blk p.l) then laneGate k a i ps r
    else if farParts ps then laneFar k dst a i ps r
    else if (r.s.cur.later.getLsbD i && !(k.kind = 1 && k.plain)) || ps.any (fun p => r.behind.contains p.l.unit) then
      { r with unfinished := r.unfinished ||| laneBit i, ready := true, flying := true, behind := r.behind ++ ps.map (fun p => p.l.unit) }
    else laneHere k dst a i ps r

/-- The lanes whose accesses go to another package in part or whole, with their parts. -/
def farLanes (k : LaneKind) (accs : Tab LaneAcc) (lanes : List Nat) (s : State) : List (Nat × List LanePart) :=
  lanes.filterMap (fun i =>
    match s.laneParts k (accs.get i default) i with
    | .ok ps => if farParts ps && !(k.kind != 0 && ps.any (fun p => s.gated s.cur.blk p.l)) then some (i, ps) else none
    | .error _ => none)

/-- R158, R355: where several accesses of a word that writes go to other packages, each is first asked for there: one that is refused traps
before any has been performed (log entry 76, DESIGN CHOICE). The answers: does the word wait, and the lanes refused. -/
def probeLanes (fs : List (Nat × List LanePart)) (s : State) : Bool × W32 × State :=
  (fs.flatMap (fun f => f.2.map (fun p => (f.1, p)))).foldl (fun r f =>
    match f.2.l.sp with
    | .remote node =>
      (match r.2.2.probe (r.2.2.whoLane f.1) node f.2.l.addr f.2.n f.2.va with
        | .wait t => (true, r.2.1, t)
        | .err _ => (r.1, r.2.1 ||| laneBit f.1, r.2.2)
        | .ok _ _ => r)
    | _ => r) (false, 0, s)

/-- R158, R355: sends the accesses of the lanes that go to another package, in ascending order: no other access of the word is made while an
answer is awaited, so that a refusal traps before any lane has accessed memory. The answers: does the word wait, and the lanes refused. -/
def sendLanes (k : LaneKind) (accs : Tab LaneAcc) (lanes : List Nat) (s : State) : Bool × W32 × State :=
  let fs := s.farLanes k accs lanes
  let asked := if k.kind != 0 && 2 ≤ (fs.flatMap (·.2)).countP (fun p => farParts [p]) then s.probeLanes fs else (false, 0, s)
  if asked.1 || asked.2.1 ≠ 0 then asked
  else
    fs.foldl (fun r f =>
      let q := r.2.2.sendParts k (accs.get f.1 default) f.1 f.2
      (r.1 || q.wait, if q.err then r.2.1 ||| laneBit f.1 else r.2.1, q.s)) (false, 0, asked.2.2)

/-- Holds the word being issued. -/
def holdWord (h : Held) (s : State) : State :=
  (s.setMe (fun x => match x.unit s.cur.unit with
    | some y => x.setUnit s.cur.unit (some { y with held := some h })
    | none => x)).flow .stay

/-- The word's end: lanes that consumed an error die (R161), and unfinished lanes park the word; a word that has stored all it stores waits
for no log (R274). -/
def laneFinish (write : Bool) (accs : Tab LaneAcc) (r : LaneRun) : State :=
  let s := r.s
  let b := s.cur.blk
  let j := s.cur.beam
  let s := if write && r.unfinished = 0 then s.unpark s.laneWriter else s
  let s := match r.consumed with
    | some a => (s.postConsumed b j 0 a.1.toNat r.dead a.2).setMe (fun x => dropLanes r.dead { x with dead := x.dead ||| r.dead })
    | none => s
  if r.unfinished = 0 then s.flow .go
  else s.holdWord { accs := accs, popped := s.cur.uq, unfinished := r.unfinished, pages := r.pages, ready := r.ready, stream := true, flying := r.flying }

/-- R19, R151: a read-modify-write that the private base leaves across two 8-byte units, with one of them on another package, has no home that
could perform it as one (R355): it fails the alignment check (log entry 64, DEDUCED). -/
def splitCause (k : LaneKind) (accs : Tab LaneAcc) (lanes : List Nat) (s : State) : Option Cause :=
  let far (i : Nat) : Bool := k.kind = 2 && (match s.laneParts k (accs.get i default) i with | .ok ps => 2 ≤ ps.length && farParts ps | .error _ => false)
  match lanes.filter far with
  | [] => none
  | i :: _ => some (memCause 3 i k.kind false (maskOf far) (accs.get i default).addr)

/-- R18: a lane's access as first issued, with the block that a cluster-aperture address names. -/
def laneIssue (s : State) (a : LaneAcc) : LaneAcc := { a with dest := if aperture a.addr == .cluster then s.groupBlock s.cur.blk (clusterCore a.addr) else none }

/-- R158, R271: the checks of a word: all of them at its issue; when it replays, or its answers have come, those of the mapping, of the lanes that
have not been sent. -/
def laneCause (k : LaneKind) (accs : Tab LaneAcc) (lanes : List Nat) (first : Bool) (s : State) : Option Cause :=
  let b := s.cur.blk
  let j := s.cur.beam
  let at_ (is : List Nat) : List (Nat × W64) := is.map (fun i => (i, (accs.get i default).addr))
  if first then (s.accessCause b j (at_ lanes) k.n k.kind false).orElse (fun _ => s.splitCause k accs lanes)
  else
    let new := lanes.filter (fun i => (accs.get i default).dest.isNone && !s.laneSent i)
    (s.mappingCause b j (at_ new) k.n k.kind).orElse (fun _ => s.splitCause k accs new)

/-- The whole word: what R240 masks outside the block's scratch (`masked`), a decode check; the checks of R158 over its lanes;
then the remote lanes' requests, and when these are answered the lanes in ascending order (R150). `acc` gives a lane's access at the first issue; a replay keeps it (R160). -/
def laneMem (k : LaneKind) (dst : Nat → Nat → State → State) (acc : Nat → LaneAcc) (masked : Bool) (op : Nat) (s : State) : State :=
  let b := s.cur.blk
  let lanes := lanesOf s.cur.act
  let held := match s.me.unit s.cur.unit with | some y => y.held | none => none
  let accs : Tab LaneAcc := match held with | some h => h.accs | none => lanes.map (fun i => (i, s.laneIssue (acc i)))
  let whole := match held with | some h => h.sending | none => true
  if masked && held.isNone && s.myBlock.mirror.isSome && lanes.any (fun i => !s.ownScratch b (accs.get i default).addr) then s.trapLane (illegal 2 s.cur.slot 0 op)
  else
    match s.laneCause k accs lanes held.isNone with
    | some c => s.trapLane c
    | none =>
      let sent : Bool × W32 × State := if whole then s.sendLanes k accs lanes else (false, 0, s)
      if sent.1 then sent.2.2.holdWord { accs := accs, popped := s.cur.uq, unfinished := s.cur.act, ready := true, stream := true, flying := true, sending := true }
      else
        let r := if sent.2.1 ≠ 0 then { s := s, refused := sent.2.1 } else lanes.foldl (laneOne k dst accs) { s := sent.2.2, pages := match held with | some h => h.pages | none => [] }
        if r.gateFull then s.trapLane gateCause
        else if r.refused ≠ 0 then
          let i := (lanesOf r.refused)[0]?.getD 0
          s.trapLane (memCause 8 i k.kind false r.refused (accs.get i default).addr)
        else laneFinish (k.kind != 0) accs r

end State

/-- R149 LD. -/
def execLd (x : LaneOp) (s : State) : Out :=
  let n := 2 ^ x.mb 0 2
  .next (s.laneMem { kind := 0, n := n, fop := 1, aop := 0, operand := fun _ => [], put := fun _ v => v, plain := x.c == 0 }
    (fun i v t => t.laneDst x n (x.mb 2 1 == 1) i v) (fun i => { addr := s.laneAddr x .a (some .b) i }) false 0x200)

/-- R149 ST; R240 masks the annotated form outside the block's scratch. -/
def execSt (x : LaneOp) (s : State) : Out :=
  let n := 2 ^ x.mb 0 2
  .next (s.laneMem { kind := 1, n := n, fop := 2, aop := 0, operand := fun a => toBytes n a.x.toNat, put := fun a _ => a.x.toNat, plain := !(x.long && x.c != 0) }
    (fun _ _ t => t) (fun i => { addr := s.laneAddr x .a (some .b) i, x := if n = 8 then s.src64 x .d i else (s.src x .d i).setWidth 64 })
    (x.long && x.c != 0) 0x201)

/-- R151 ATOM. -/
def execAtom (x : LaneOp) (s : State) : Out :=
  let n := 2 ^ x.mb 4 2
  let op := (Aop.ofCode (x.mb 0 4)).getD .swap
  .next (s.laneMem { kind := 2, n := n, fop := 3, aop := op.code, operand := fun a => toBytes n a.x.toNat, put := fun a old => aopApply op (8 * n) old a.x.toNat, plain := false }
    (fun i v t => t.laneDst x n (x.mb 6 1 == 1) i v)
    (fun i => { addr := s.laneAddr x .a none i, x := if n = 8 then s.src64 x .b i else (s.src x .b i).setWidth 64 }) true 0x202)

/-- R152 ACAS: vd holds the expected value; a failed comparison writes back what it read. -/
def execAcas (x : LaneOp) (s : State) : Out :=
  let n := 2 ^ x.mb 4 2
  let low (v : W64) : Nat := v.toNat % 2 ^ (8 * n)
  .next (s.laneMem { kind := 2, n := n, fop := 3, aop := 9, operand := fun a => toBytes n a.y.toNat ++ toBytes n a.x.toNat, put := fun a old => if old = low a.y then a.x.toNat else old, plain := false }
    (fun i v t => t.laneDst x n (x.mb 6 1 == 1) i v)
    (fun i => { addr := s.laneAddr x .a none i, x := if n = 8 then s.src64 x .b i else (s.src x .b i).setWidth 64, y := if n = 8 then s.src64 x .d i else (s.src x .d i).setWidth 64 })
    true 0x203)

/-- R153 PREF: changes no value that a program sees, orders nothing and drops silently. -/
def execPref (_x : LaneOp) (s : State) : Out := .next (s.flow .go)

/-- R154: the aperture that m10 names. -/
def apOf (x : LaneOp) : Aperture := match x.mb 0 2 with | 0 => .scratch | 1 => .cluster | 2 => .priv | _ => .glob

/-- R154 CVTA. -/
def execCvta (x : LaneOp) (s : State) : Out :=
  if x.mb 2 1 = 1 then
    .next (s.mapV x (fun s i =>
      let a := s.base x .a i
      if a.toNat / 2 ^ 48 = (apOf x).sel then a.setWidth 32 else 0xFFFFFFFF))
  else
    .next (((lanesOf s.cur.act).foldl (fun t i => t.writePair x.d.toNat i (BitVec.ofNat 64 ((apOf x).sel * 2 ^ 48 + (s.src x .a i).toNat))) s).flow .go)

/-- R154 ISAP: is the address well-formed for the aperture. -/
def execIsap (x : LaneOp) (s : State) : Out :=
  .next (s.mapP x s.cur.act (fun s i =>
    let a := s.base x .a i
    aperture a == apOf x && (formFault a).isNone))

/-- R155 FENCE: the stores that it orders are performed at its fetch (log entry 20, DESIGN CHOICE). -/
def execFence (_x : LaneOp) (s : State) : Out := .next (s.flow .go)

/-- R159: does every page of a list translate now. -/
def State.pagesReady (s : State) (b : Nat) (ps : List Nat) : Bool :=
  ps.all (fun p => match s.xlat (s.ctxOf b) (s.tenantOf b) (p * 65536) false with | .fault _ _ _ => false | _ => true)

/-- R159: can every access of the unfinished lanes of a held word be translated now. A word that keeps no accesses waits for
the pages of its fragment record (R132). -/
def State.heldReady (s : State) (b j : Nat) (h : Held) : Bool :=
  if h.accs.isEmpty then s.pagesReady b h.pages
  else (lanesOf h.unfinished).all (fun i => (h.accs.get i default).dest.isSome || match s.locate b j i (h.accs.get i default).addr false with | .fault _ _ _ => false | _ => true)

/-- R160 FAULT_REPLAY: words and scalar accesses of the beam parked on pages that all translate now may issue again: the
word replays for its unfinished lanes (log entry 35, DEDUCED). A TFORK replays from the start: it reads its launch record again (R261). -/
def execFaultReplay (blk beam : Nat) (s : State) : Out :=
  let wake (y : LUnit) : LUnit :=
    match y.held with
    | some h => if !h.ready && s.heldReady blk beam h then { y with held := some { h with ready := true } } else y
    | none => y
  let again := match (s.beamAt blk beam).spark with | .fault p r => !r && s.pagesReady blk [p] && (s.beamAt blk beam).read.isSome | _ => false
  .next (if s.onCore blk then
      (if again then s.forget (.scalar blk beam) else s).setBeam blk beam (fun x =>
        { x with
          read := if again then none else x.read
          lit := x.lit.map wake
          shade := x.shade.map wake
          frags := x.frags.mapV (fun _ y => wake y)
          spark := match x.spark with
            | .fault p r => .fault p (r || s.pagesReady blk [p])
            | k => k })
    else s)

end Sys2Proof.Machine
end

