-- ==== Sys2Proof/Machine/Place.lean ====
section
/-! DEFINITION. Placing the blocks of ready tasks (R174, R180, R238, R253, R313, R338, R371). -/

namespace Sys2Proof.Machine
namespace State

/-- R253, R261, R315: two tasks are placed in one order: of one queue, of one program's start, or forked on one die. -/
def sameOrder (x y : Task) : Bool :=
  if x.starts || y.starts then x.starts && y.starts && x.prog = y.prog
  else if x.forked || y.forked then x.forked && y.forked && x.home = y.home && x.tenant = y.tenant
  else x.queue = y.queue

/-- R253: is a task the first ready one of its order with blocks to place. -/
def firstReady (s : State) (id : Nat) : Bool :=
  let t := s.task id
  s.tasks.all (fun e => e.1 = id || !(sameOrder t e.2) || e.2.ended || e.2.lr.blocks ≤ e.2.placed ||
    (match e.2.ready, t.ready with | some a, some b => b ≤ a | _, _ => true))

/-- R338: s1 of a task's beams. -/
def startArgs (s : State) (t : Task) : W64 :=
  if t.starts && t.args ≠ 0 then t.args else if t.lr.args ≠ 0 then t.lr.args else (s.progs.get t.prog default).argAddr

/-- R36, R335, R337: block `k` of a task as it starts on core `c`. -/
def newBlock (s : State) (id k c : Nat) : Block :=
  let t := s.task id
  let l := t.lr
  let spots := (spotsFrom (s.takenSpots c) l.beams 0).getD []
  let regs : Tab W64 := [(1, s.startArgs t), (2, t.addr)]
  { task := id, index := k, launch := t.addr, core := c, regg := l.regg, scrg := l.scrg, accg := l.accg
    prbase := l.pbase + BitVec.ofNat 64 (k * l.pblock), prsize := l.prsize
    beams := (List.range l.beams).map (fun j =>
      let p := (spots[j]?).getD (0, 0)
      (j, { role := l.role j, units := l.units j, part := p.1, bslot := p.2, spc := l.entry, s := regs, tile := l.width })) }

/-- R174, R278, R313, R371: may one more block of a task stand on core `c`, with `n` images more in its context. -/
def canStand (s : State) (id c n : Nat) : Bool :=
  let t := s.task id
  let x := s.ctxs.get t.ctx default
  let b := s.newBlock id 0 c
  t.dies.testBit (dieOf c) && s.mayUse t.ctx c && !(s.dies.any (fun e => e.2.waitq.contains t.ctx)) && s.roomFor c b && s.imagesOf t.ctx + n * b.imageBytes ≤ x.savebytes && x.savebytes ≤ 65536 * x.area.length

/-- R14, R371: does a block of the task run on a cluster. -/
def groupOn (s : State) (id cl : Nat) : Bool := s.blocks.any (fun e => e.2.task = id && !e.2.ended && e.2.core / 4 = cl)

/-- Stands one block on a core. -/
def standNew (id k c : Nat) (s : State) : Nat × State :=
  let (b, s) := s.fresh
  let x := s.newBlock id k c
  let s := { s with blocks := s.blocks.put b { x with seq := b, accBase := s.accBaseFor (s.task id).ctx c b x.accg } }
  (b, s)

/-- One block, or one pair with its mirror on cluster `m`. -/
def placeOne (id c : Nat) (m : Option Nat) (s : State) : State :=
  let t := s.task id
  let (b, s) := s.standNew id t.placed c
  let s := match m with
    | none => s
    | some cl =>
      let (q, s) := s.standNew id t.placed (4 * cl + c % 4)
      let s := (s.setBlock b (fun k => { k with mirror := some { partner := q, primary := true } })).setBlock q (fun k => { k with mirror := some { partner := b, primary := false } })
      (s.checkpoint b).checkpoint q
  let s := s.setTask id (fun k => { k with placed := k.placed + 1, die := some (dieOf c) })
  s.tapBeam b 0 0x00 (BitVec.ofNat 32 t.placed) (t.addr.setWidth 32) (BitVec.ofNat 32 t.lr.beams) 0

/-- R238: may core `c` take a block of the task, and its mirror core too. -/
def pairFits (s : State) (id c : Nat) (m : Option Nat) : Bool :=
  match m with
  | none => s.canStand id c 1
  | some cl => s.canStand id c 2 && s.canStand id (4 * cl + c % 4) 2

/-- Places a task's next blocks, one on each core of the list that takes it (log entry 34, DESIGN CHOICE). -/
def placeOn (id : Nat) (m : Option Nat) : List Nat → State → State
  | [], s => s
  | c :: r, s =>
    if (s.task id).placed < (s.task id).lr.blocks && s.pairFits id c m then placeOn id m r (s.placeOne id c m) else placeOn id m r s

/-- R238: the cluster for the mirrors of a group whose first block goes on core `c`: another one of the die. -/
def mirrorCluster (s : State) (id c : Nat) : Option Nat :=
  ((List.range 24).map (fun i => 24 * (c / 96) + i)).find? (fun cl => cl ≠ c / 4 && !s.groupOn id cl && s.canStand id (4 * cl + c % 4) 2)

end State

/-- R174, R371 BLOCK_PLACEMENT: the next block of a ready task goes on a core, and further ones on the other cores of its
cluster: they are one group, made resident together (R14). -/
def execBlockPlacement (task core : Nat) (s : State) : Out :=
  .next (
    let t := s.task task
    if (s.tasks.find task).isSome && t.ready.isSome && !t.ended && !t.stopped && t.placed < t.lr.blocks && s.firstReady task
        && (s.ladders.find t.ctx).isNone && (s.ladders.find t.prog).isNone && (s.ladders.find (State.testKey (core / 4) t.ctx)).isNone
        && (match t.die with | some d => d = State.dieOf core | none => true) && !s.groupOn task (core / 4) then
      let m := if t.lr.mirror then s.mirrorCluster task core else none
      if t.lr.mirror && m.isNone then s
      else if !s.pairFits task core m then s
      else
        let s := s.placeOn task m (core :: ((List.range 4).map (fun i => core / 4 * 4 + i)).filter (fun c => c ≠ core && !((s.core c).withdrawn)))
        if (s.task task).placed = t.lr.blocks then (s.setTask task (fun k => { k with slot := 0 })).tapTask task 0x26 else s
    else s)

end Sys2Proof.Machine
end

