-- ==== Sys2Proof/Machine/ScalarCtl.lean ====
section
/-! DEFINITION. Control flow of the scalar stream (R88), the lane links (R82, R89), the register pool (R177), TRAP (R94)
and ERET (R220). -/

namespace Sys2Proof.Machine
namespace State

/-- R43: does a word of `.scode` stand at a target. -/
def sTarget (s : State) (t : W64) : Bool := t.toNat < (s.codeOf s.cur.blk).scode.length
/-- R43: does a word of `.lcode` stand at a target. -/
def lTarget (s : State) (t : W64) : Bool := t.toNat < (s.codeOf s.cur.blk).lcode.length
/-- R43, R218: the trap of a target outside the section (log entry 19 for its field, DESIGN CHOICE). -/
def badTarget (t : W64) (s : State) : State := s.trapMe (State.targetCause 3 6 t)
/-- Goes on at a word. -/
def goTo (t : W64) (s : State) : State := s.setMe (fun b => { b with spc := t, spark := .none })

end State

/-- R88 SB. -/
def execSb (c : Cond) (a b : BitVec 5) (off : BitVec 13) (s : State) : Out :=
  if condHolds c (s.rs a) (s.rs b) then
    let t := s.me.spc + off.signExtend 64
    .next (if s.sTarget t then s.goTo t else s.badTarget t)
  else .next s.advance

/-- R88 SJAL. -/
def execSjal (d : BitVec 5) (off : BitVec 21) (s : State) : Out :=
  let t := s.me.spc + off.signExtend 64
  .next (if s.sTarget t then (s.ws d (s.me.spc + 1)).goTo t else s.badTarget t)

/-- R88 SJR: `s[a]` is read before `s[d]` is written. -/
def execSjr (d a : BitVec 5) (k : BitVec 16) (s : State) : Out :=
  let t := s.rs a + sextI k
  .next (if s.sTarget t then (s.ws d (s.me.spc + 1)).goTo t else s.badTarget t)

/-- R89 LRUN: the region carries the `fmode` it is enqueued under (R71). -/
def execLrun (a : BitVec 5) (k : BitVec 16) (s : State) : Out :=
  .next (s.notInHandler 0x20 (fun s =>
    let t := s.rs a + sextI k
    if !s.lTarget t then s.badTarget t
    else if s.me.regions.length < 4 then (s.setMe (fun b => { b with regions := b.regions ++ [{ start := t, fmode := b.fmode }] })).advance
    else s.park .lrun))

/-- R89 LWAIT. -/
def execLwait (s : State) : Out := .next (s.notInHandler 0x21 (fun s => s.afterRegions (fun s => s.advance)))

/-- R89 UPUSH. -/
def execUpush (a : BitVec 5) (s : State) : Out :=
  .next (s.notInHandler 0x22 (fun s =>
    if s.me.uq.length < 16 then (s.setMe (fun b => { b with uq := b.uq ++ [s.rs a] })).advance else s.park .upush))

/-- R89 SGETW: `w[k]`, or the lanes of a predicate with lane i in bit i. -/
def execSgetw (d : BitVec 5) (k : BitVec 4) (s : State) : Out :=
  .next (s.afterRegions (fun s => s.sWriteReg d (if k.toNat < 8 then s.rw k.toNat else (s.rp (k.toNat - 8)).setWidth 64)))

/-- R218: the REG.ALLOT detail. -/
def allotCause (units n : Nat) : Cause := { grp := 4, code := 2, d0 := units, d1 := BitVec.ofNat 32 n }

/-- R177 RGIVE: the given registers leave, and parked claims are granted (R178). -/
def execRgive (n : BitVec 11) (s : State) : Out :=
  .next (s.notInHandler 0x24 (fun s => s.afterRegions (fun s =>
    let u := s.me.units
    if n.toNat ≥ u then s.trapMe (allotCause u n.toNat)
    else
      let t := (s.setMe (fun b => { b with units := u - n.toNat, v := b.v.filter (fun e => e.1 < 32 * (8 * (u - n.toNat))) })).advance
      (t.tapBeam s.cur.blk s.cur.beam 0x10 (n.setWidth 32) (BitVec.ofNat 32 t.myBlock.reserve) (BitVec.ofNat 32 t.me.units) 0).grantClaims s.cur.blk)))

/-- R177 RCLAIM: granted at once where it fits (R178), else parked with its age, the clk of its park. -/
def execRclaim (n : BitVec 11) (s : State) : Out :=
  .next (s.notInHandler 0x25 (fun s => s.afterRegions (fun s =>
    let u := s.me.units
    if u + n.toNat > 40 then s.trapMe (allotCause u n.toNat)
    else if n.toNat ≤ s.myBlock.reserve then s.grantClaim s.cur.blk s.cur.beam n.toNat
    else
      (s.park (.claim s.clk.toNat n.toNat)).tapBeam s.cur.blk s.cur.beam 0x11 (n.setWidth 32) (BitVec.ofNat 32 s.myBlock.reserve) (BitVec.ofNat 32 u) 0)))

/-- R94 TRAP: USER trap k; `tpc` names the word after it. In a block that halts already it has no effect (R217). -/
def execTrap (k : BitVec 11) (s : State) : Out :=
  .next ((if s.myBlock.halt.isNone || s.me.inHandler then s.advance else s).trapMe { grp := 10, code := k.toNat })

/-- R220 ERET. -/
def execEret (s : State) : Out :=
  .next (if s.me.inHandler then s.leaveHandler s.cur.blk else s.trapMe (State.illegal 1 3 0 0x2B))

end Sys2Proof.Machine
end

