-- ==== Sys2Proof/Machine/Spdm.lean ====
section
/-! DEFINITION. Attestation (R329): each SPDM request has the trusted firmware's response, whose bytes the spec does not give
(log entry 9, DESIGN CHOICE). -/

namespace Sys2Proof.Machine

/-- R329: the response to the next request, of kind `k` in the order of the rule. -/
def State.spdmAnswer (k : Nat) (s : State) : State :=
  { s with spdm := { s.spdm with answers := s.spdm.answers ++ [(k, Config.spdmResponse s.spdm.count k s.spdm.verified)], count := s.spdm.count + 1 } }

/-- R329 GET_VERSION. -/
def execGetVersion (_req : List Byte) (s : State) : Out := .next (s.spdmAnswer 0)
/-- R329 GET_CAPABILITIES. -/
def execGetCapabilities (_req : List Byte) (s : State) : Out := .next (s.spdmAnswer 1)
/-- R329 NEGOTIATE_ALGORITHMS. -/
def execNegotiateAlgorithms (_req : List Byte) (s : State) : Out := .next (s.spdmAnswer 2)
/-- R329 GET_DIGESTS. -/
def execGetDigests (_req : List Byte) (s : State) : Out := .next (s.spdmAnswer 3)
/-- R329 GET_CERTIFICATE. -/
def execGetCertificate (_req : List Byte) (s : State) : Out := .next (s.spdmAnswer 4)
/-- R329 CHALLENGE. -/
def execChallenge (_req : List Byte) (s : State) : Out := .next (s.spdmAnswer 5)
/-- R329 GET_MEASUREMENTS: also how an untrusted image that failed verification is reported (R330). -/
def execGetMeasurements (_req : List Byte) (s : State) : Out := .next (s.spdmAnswer 6)

end Sys2Proof.Machine
end

