-- ==== Sys2Proof/Machine/SysRegs.lean ====
section
/-! DEFINITION. The system registers (R90 to R93, R176, R212, R216, R246, R252, R279, R323, R332, R359, R363) and the two
instructions that read and write them. -/

namespace Sys2Proof.Machine

/-- R93: the layout of a slot's status (log entry 69, DESIGN CHOICE). -/
def slotStatus : Option LUnit → W64
  | some u => u.mask.setWidth 64 ||| (u.token.setWidth 64 <<< 32) ||| (1#64 <<< 63)
  | none => 0

/-- R212: bits 64 k to 64 k + 63 of the live tiles. -/
def liveWord (tiles : List Nat) (k : Nat) : W64 :=
  BitVec.ofNat 64 ((List.range 64).foldl (fun n j => if tiles.contains (64 * k + j) then n + 2 ^ j else n) 0)

namespace State

/-- R238: the block whose placement a mirror reads: the primary's. -/
def placeBlock (s : State) (b : Nat) : Nat := match (s.block b).mirror with | some m => if m.primary then b else m.partner | none => b

/-- R92: `place` of beam `j` of block `b`. -/
def placeOf (s : State) (b j : Nat) : Nat :=
  let k := s.block (s.placeBlock b)
  let x := s.beamAt (s.placeBlock b) j
  j + 32 * (k.beams.length - 1) + 2 ^ 10 * x.part + 2 ^ 12 * x.bslot + 2 ^ 15 * (k.core % 4) + 2 ^ 17 * (k.core % 96 / 4) + 2 ^ 22 * dieOf k.core

/-- R91: the partition of a beam, numbered over the package. -/
def partitionOf (s : State) (b j : Nat) : Nat := 4 * (s.block (s.placeBlock b)).core + (s.beamAt (s.placeBlock b) j).part

/-- R216: ref ticks until SHUTTER, when a KNOCK is pending; 0 with pre-emption disabled (R223). -/
def graceLeft (s : State) (b : Nat) (x : Beam) : Nat :=
  if x.preq.getLsbD 0 && !(s.ctxs.get (s.ctxOf b) default).nopre then
    match s.ladderOf b with
    | some l => (match l.deadline with | some d => min (d - s.now) (2 ^ 32 - 1) | none => 0)
    | none => 0
  else 0

/-- R279: pages in the clean pool of a die. -/
def cleanPages (s : State) (d : Nat) : Nat := ((s.die d).clean.map (fun e => e.2)).sum

/-- R252: unjoined children of a task. -/
def unjoined (s : State) (t : Nat) : Nat := ((s.task t).kids.filter (fun c => !(s.task c).joined)).length

/-- R359: peer states of slots `lo` to `lo + 31`. -/
def peerWord (s : State) (lo : Nat) : Nat := (List.range 32).foldl (fun n k => n + (s.fab.peers.get (lo + k) default).state * 4 ^ k) 0

/-- The value of a system register, as the issuing beam reads it. A slot without a unit reads 0 (R90; log entry 69, DESIGN CHOICE).
The fields of a feature that the hypervisor masks read as without the mask (log entry 80, DESIGN CHOICE). -/
def readSys (s : State) (r : SysReg) : W64 :=
  let b := s.cur.blk
  let j := s.cur.beam
  let x := s.me
  let c := s.coreOf b
  let n := BitVec.ofNat 64
  match r with
  | .fmode => x.fmode.setWidth 64
  | .seed => x.seed
  | .ctr => x.ctr
  | .dead => x.dead.setWidth 64
  | .sor => x.sor.setWidth 64
  | .retired => x.retired.setWidth 64
  | .lanemap => (Config.lanemap (s.partitionOf b j)).setWidth 64
  | .passes => n (Config.passes (s.partitionOf b j))
  | .place => n (s.placeOf b j)
  | .beamcfg => n (x.role + 256 * x.units)
  | .litpc => match x.lit with | some u => u.pc | none => 0
  | .litst => slotStatus x.lit
  | .shadepc => match x.shade with | some u => u.pc | none => 0
  | .shadest => slotStatus x.shade
  | .fragn => n x.frags.length
  | .strm => n (x.uq.length + 32 * x.regions.length + (if uqWaits x then 256 else 0))
  | .cycles => s.cyclesOf c
  | .reftime => s.reftime
  | .trapvec => x.trapvec
  | .tcg => x.tcg.setWidth 64
  | .tdr0 => x.tdr0.setWidth 64
  | .tdr1 => x.tdr1.setWidth 64
  | .tdr2 => x.tdr2.setWidth 64
  | .tpc => x.tpc
  | .tlpc => x.tlpc
  | .skid => x.skid
  | .preq => x.preq.setWidth 64 ||| n (2 ^ 16 * s.graceLeft b x)
  | .poolpart => (s.taskOf b).lr.poolpart.setWidth 64
  | .reserve => n (s.block b).reserve
  | .corepass => n ((List.range 4).foldl (fun a p => a + Config.passes (4 * c + p) * 4 ^ p) 0)
  | .accown => match (s.core c).accown with | some o => n (s.cidOf o + 2 ^ 31) | none => 0
  | .acclive0 => liveWord (s.core c).acclive 0
  | .acclive1 => liveWord (s.core c).acclive 1
  | .acclive2 => liveWord (s.core c).acclive 2
  | .acclive3 => liveWord (s.core c).acclive 3
  | .prog => n ((List.range 4).foldl (fun a q => a + (match (s.core c).se.get q [] with | e :: _ => e.prog % 2 ^ 16 | [] => 0) * 2 ^ (16 * q)) 0)
  | .mstat => n ((s.core c).quad.length + 32 * (match (s.core c).quad with | e :: _ => if e.kind = .mstr then e.row else 0 | [] => 0)
      + (if (s.core c).lead = 0 then 0 else 2048) + (if (s.core c).follow.isSome then 4096 else 0))
  | .mirst => match (s.block b).mirror with | some m => n (1 + 256 * min m.mism 255) | none => 0
  | .taskst => n ((s.taskOf b).depth + (if (s.taskOf b).forked then 256 else 0) + (if (s.block b).trig then 512 else 0) + 2 ^ 16 * min (s.unjoined (s.block b).task) 65535)
  | .diemem =>
    let d := s.die (dieOf c)
    n (min (s.cleanPages (dieOf c)) 0xFFFFFF + 2 ^ 24 * min (s.scrubPages (dieOf c)) 0xFFFFFF + (if d.quiesce.isSome then 2 ^ 48 else 0) + (if s.hardFull (dieOf c) then 2 ^ 55 else 0))
  | .caplist => n capVa
  | .tstamp0 => Config.tstamp0
  | .tstamp1 => Config.tstamp1
  | .fabnode => match s.fab.node with | some v => n (v.toNat + 2 ^ 12 * s.fab.ports.toNat + 2 ^ 28) | none => n (2 ^ 12 * s.fab.ports.toNat)
  | .peerst0 => n (s.peerWord 0)
  | .peerst1 => n (s.peerWord 32)

/-- A write of a system register by the issuing beam; read-only registers and reserved bits keep their values (R90). -/
def writeSys (r : SysReg) (x : W64) (s : State) : State :=
  match r with
  | .fmode => s.setMe (fun b => { b with fmode := x.setWidth 32 &&& 0xF })
  | .seed => s.setMe (fun b => { b with seed := x })
  | .ctr => s.setMe (fun b => { b with ctr := x })
  | .sor => s.setMe (fun b => { b with sor := b.sor &&& ~~~(x.setWidth 32) })
  | .trapvec => s.setMe (fun b => { b with trapvec := x })
  | .tpc => s.setMe (fun b => if b.inHandler then { b with tpc := x } else b)
  | .tlpc => s.setMe (fun b => if b.inHandler then { b with tlpc := x } else b)
  | _ => s

/-- R90: an interlocked access waits for every earlier region. -/
def interlock (wait : Bool) (k : State → State) (s : State) : State := if wait then s.afterRegions k else k s

end State

/-- R90 SYSR. -/
def execSysr (d : BitVec 5) (r : SysReg) (s : State) : Out :=
  .next (s.interlock (SysReg.interlocked false r) (fun s => s.sWriteReg d (s.readSys r)))

/-- R90 SYSW. -/
def execSysw (r : SysReg) (a : BitVec 5) (s : State) : Out :=
  .next (s.interlock (SysReg.interlocked true r) (fun s => (s.writeSys r (s.rs a)).advance))

end Sys2Proof.Machine
end

