-- ==== Sys2Proof/Machine/Traps.lean ====
section
/-! DEFINITION. Delivering a trap: the handler's start (R217), termination (R219), and the debugger (R226); the recheck of
overflowed watches (R168). -/

namespace Sys2Proof.Machine
namespace State

/-- R226: is a block's stop the debugger's. -/
def debugStop (s : State) (b : Nat) : Bool := match (s.block b).halt with | some h => (match h.cause with | some c => c.grp = 9 && c.code ≤ 2 | none => false) | none => false

/-- R219: can the trap of a block be handled: it is not the debugger's (R226), a handler is installed, none runs, and the beam has not
exited. -/
def handled (s : State) (b : Nat) : Bool :=
  !s.debugStop b &&
  match (s.block b).halt with
  | some h =>
    let x := s.beamAt b h.beam
    h.stage != .ending && !x.exited && x.trapvec.getLsbD 63 && !x.tcg.getLsbD 6
  | none => false

/-- R219: the TRAP record (R325): the trapping beam with its stop registers. -/
def postTrap (b : Nat) (s : State) : State :=
  match (s.block b).halt with
  | none => s
  | some h =>
    let x := s.beamAt b h.beam
    let k := s.block b
    let at_ (p : W64) : Nat := if k.liveBeams.isEmpty then 0 else p.toNat
    s.postCtx (s.ctxOf b) 2 (toBytes 1 x.tcg.toNat ++ toBytes 1 h.beam ++ toBytes 2 k.core ++ toBytes 4 x.tdr0.toNat ++ toBytes 4 x.tdr1.toNat ++ toBytes 4 x.tdr2.toNat
      ++ toBytes 8 (at_ x.tpc) ++ toBytes 8 (at_ x.tlpc) ++ toBytes 8 k.launch.toNat ++ toBytes 4 k.index ++ toBytes 4 0)

/-- R219: entries that have not started are discarded. -/
def dropUnstarted (b : Nat) (s : State) : State :=
  s.setCore (s.coreOf b) (fun k => { k with se := k.se.mapV (fun _ l => l.filter (fun e => e.blk != b || (e.started && e.kind != .fence))) })

/-- R219, R234: terminates a block: started stream-engine entries run to completion, quadrant entries stop and are discarded, and while
one stalls, a fusion holds the block, or another block's access to its scratch is in flight (R18), the termination waits. `record`: does it post the TRAP record. -/
def terminate (record : Bool) (b : Nat) (s : State) : State :=
  let s : State := (match (s.block b).halt with | some h => if h.stage = HaltStage.signalled then s.haltDone b else s | none => s)
  let s := ((s.dropUnstarted b).settleSe b).settleQuad b
  let s := s.setCore (s.coreOf b) (fun k => { k with quad := popQuad s.heldQ (k.quad.filter (fun e => e.blk != b)) })
  if !(s.seOf b).isEmpty || s.slaved b || s.leadBusy b || s.inFlightTo b then s.setBlock b (fun k => { k with halt := k.halt.map (fun h => { h with stage := .ending }) })
  else
    let s : State := if record then s.postTrap b else s
    let s : State := (s.block b).beams.foldl (fun s e => if e.2.exited then s else (s.endBeam b e.1).forgetBeam b e.1) s
    (s.performAllBo (s.coreOf b)).retireBlock b true

/-- R226: a halt for the debugger. -/
def toDebugger (b : Nat) (s : State) : State :=
  let s : State := (match (s.block b).halt with | some h => if h.stage = HaltStage.ending then s else s.haltDone b | none => s)
  s.setBlock b (fun k => { k with halt := k.halt.map (fun h => { h with stage := .debug }) })

/-- R226: a block goes on after a debugger's halt, as after a handler: in the beam of the halt the scalar stream resumes at `tpc`, the
unit that trapped at `tlpc`, and `tcg[7]` is clear; parked instructions are evaluated again, and a cause held meanwhile is taken. A handler
in which the halt was raised goes on (log entry 45, DEDUCED). -/
def resumeBlock (b : Nat) (s : State) : State :=
  match (s.block b).halt with
  | none => s
  | some h =>
    let back (x : Beam) : Beam := { x with spark := if x.tpc = x.spc then x.spark else .none, spc := x.tpc }
    match h.nested with
    | some n =>
      let s := if h.beam = n.beam then s.setBeam b n.beam (fun x => { back x with tpc := n.tpc, tlpc := n.tlpc }) else s
      s.setBlock b (fun k => { k with halt := some { h with beam := n.beam, cause := n.cause, unit := n.unit, stage := .handler, frozen := false, nested := none } })
    | none =>
      let s := s.setBeam b h.beam (fun x => unitAt (h.unit.getD 0) x.tlpc { back x with tcg := x.tcg &&& ~~~0x80 })
      (((s.reevalBlock b).setBlock b (fun k => { k.unhold with halt := h.goesOn })).takeHeld b).settle b

/-- R221, R226: a debugger stores to memory, on another package too: no earlier answer is taken for its own. -/
def debugPut (a : W64) (n x : Nat) (s : State) : State :=
  let b := s.cur.blk
  let who : ReqWho := .scalar b (s.cur.beam + 64)
  let s := s.dropReqs (s.tenantOf b) (· == who)
  if (s.accessCause b s.cur.beam [(0, a)] n 1 true).isSome then s
  else
    match s.locate b s.cur.beam 0 a true with
    | .ok l page =>
      (match l.sp with
        | .remote node => if s.gated b l then (match s.sWrite a n x with | .done _ t => t | _ => s)
            else (match s.remoteStore who 2 0 node l.addr n (toBytes n x) page 0 (s.cidOf (s.ctxOf b)) none a.toNat with | .wait t => t | _ => s)
        | _ => (match s.sWrite a n x with | .done _ t => t | _ => s))
    | _ => s

/-- R221, R226: a debugger writes a register or memory of a halted block: it takes effect as a handler's write does. -/
def debugWrite (b j : Nat) (w : DebugWrite) (s : State) : State :=
  let there := match (s.block b).halt with | some h => h.stage = .debug | none => false
  if !(s.onCore b && there && (s.ctxs.get (s.ctxOf b) default).dbg && ((s.block b).beams.find j).isSome) then s
  else
    let s := { s with cur := { blk := b, beam := j } }
    match w with
    | .scalar n x => s.ws n x
    | .lane n i x => if n < s.me.regCount && i < 32 then s.wv n i x else s
    | .uniform n x => if n < 32 then s.ww n x else s
    | .pred n m => if n < 7 then s.setMe (fun x => { x with p := x.p.put n m }) else s
    | .index i x => if i < 32 then s.wix i x else s
    | .pc x => s.setMe (fun y => { y with tpc := x, spc := if y.inHandler then y.spc else x, spark := .none })
    | .unitPc u x => s.setMe (fun y => match y.unit u with
        | some z => { y.setUnit u (some { z with pc := x, join := false, mwait := none, held := none }) with uqneed := 0, tlpc := if u = (((s.block b).halt).bind (·.unit)).getD 0 then x else y.tlpc }
        | none => y)
    | .sys r x => s.writeSys r x
    | .mem a n x => s.debugPut a n x

/-- R226: a debugger's halt of a running block, in beam `j`: complete at once where every access is performed (R215 step 4). -/
def debugHalt (b j : Nat) (c : Cause) (s : State) : State :=
  let t := s.takeTrap b j c none
  if s.accessesDone b then t.toDebugger b else t

/-- R226: a single step is over: DEBUG.STEP halts the block, unless it halts already. -/
def stepDone (b j req : Nat) (s : State) : State :=
  let t := if (s.beamAt b j).exited then s.firstBeam b else j
  let c : Cause := { grp := 9, code := 2, d1 := BitVec.ofNat 32 req }
  if !s.onCore b then s
  else match (s.block b).halt with
    | none => s.debugHalt b t c
    | some h => if h.stage = .handler then s.trapInHandler b t c else s

end State

/-- R217 HANDLER_START: the stop is complete, and the handler's first instruction is next on the trapping beam; in a block that a SHUTTER stops it
starts at the restore (R222). -/
def execHandlerStart (blk : Nat) (s : State) : Out :=
  .next (if s.onCore blk && s.stopped blk && s.handled blk && (s.pairOf blk).all (fun b => s.accessesDone b && !s.quietBlock b)
    then s.deliver blk (fun s => (s.pairOf blk).foldl (fun s b => s.enterHandler b) s) else s)

/-- R219 BLOCK_TERMINATE: a stop that no handler takes ends the block, or leaves it to an attached debugger (R226); so does the
debugger's own stop, in its block alone. -/
def execBlockTerminate (blk : Nat) (s : State) : Out :=
  .next (if s.onCore blk && s.stopped blk && !s.handled blk && s.accessesDone blk
    then
      if s.debugStop blk then s.toDebugger blk
      else if (s.ctxs.get (s.ctxOf blk) default).dbg then s.deliver blk (fun s => (s.pairOf blk).foldl (fun s b => s.toDebugger b) s)
      else s.deliver blk (fun s => (s.pairOf blk).foldl (fun s b => s.terminate (b = s.primaryOf blk || (s.pairOf blk).length = 1) b) s)
    else s)

/-- R226 DEBUG_BREAK: the block stops, and DEBUG.BREAK is raised in its lowest-indexed live beam; in a running handler it is a trap raised
there (R219). In a block that halts already it is held until that halt has ended (log entry 59, DEDUCED). -/
def execDebugBreak (blk req : Nat) (freeze : Bool) (s : State) : Out :=
  .next (
    let c : Cause := { grp := 9, code := 1, d1 := BitVec.ofNat 32 req }
    if s.onCore blk && (s.ctxs.get (s.ctxOf blk) default).dbg && !(s.block blk).liveBeams.isEmpty then
      let freezeIt (t : State) : State := t.setBlock blk (fun k => { k with halt := k.halt.map (fun g => { g with frozen := freeze }) })
      match (s.block blk).halt with
      | none => freezeIt (s.debugHalt blk (s.firstBeam blk) c)
      | some h =>
        if h.stage = .handler then freezeIt (s.trapInHandler blk (s.firstBeam blk) c)
        else if h.stage = .ending || h.stage = .debug then s
        else s.setBlock blk (fun k => { k with causes := k.causes ++ [(s.firstBeam blk, c)], freeze := freeze })
    else s)

/-- R226 DEBUG_STEP: the block goes on until the chosen beam has issued one scalar instruction or one lane word, and then halts again
(`State.stepEnd`); where that word may issue now, it is the next that does (log entry 45, DESIGN CHOICE). -/
def execDebugStep (blk beam req : Nat) (lane : Bool) (s : State) : Out :=
  .next (
    let there := match (s.block blk).halt with | none => true | some h => h.stage = .debug && s.accessesDone blk
    if s.onCore blk && (s.ctxs.get (s.ctxOf blk) default).dbg && there && !(s.beamAt blk beam).exited then
      let t := (s.resumeBlock blk).setBlock blk (fun k => { k with stepping := some (beam, req, lane) })
      let turn : List Turn := if lane then (((t.beamAt blk beam).unitIds.filter (t.mayLane blk beam)).take 1).map (Turn.lane blk beam)
        else if t.mayScalar blk beam then [.scalar blk beam] else []
      { t with agenda := turn ++ t.agenda }
    else s)

/-- R226 DEBUG_RESUME. -/
def execDebugResume (blk : Nat) (s : State) : Out :=
  .next (match (s.block blk).halt with
    | some h => if h.stage = .debug && s.accessesDone blk then s.resumeBlock blk else s
    | none => s)

namespace State

/-- R168: what a recheck of one overflowed entry finds: its line's bytes, once known. A poisoned line is consumed as the acquire read of its
WATCH would (R161; log entry 62, DEDUCED). -/
def lineNow (b j : Nat) (w : WatchE) (s : State) : Option (List Byte) × State :=
  let who : ReqWho := .watch b (j + 32)
  let consume (s : State) : Option (List Byte) × State := (none, (s.postConsumed b j 1 w.va.toNat 1 (some w.loc)).killBeam b j)
  match w.loc.sp with
  | .remote node =>
    match s.remote who 1 0 node w.loc.addr 64 [] with
    | .wait t => (none, t)
    | .ok bs poison => if poison then consume (s.forget who) else (some bs, s.forget who)
    | .err _ => (some w.snap, s.forget who)
  | _ => if s.poisonedAt w.loc 64 then consume s else (some (s.peek w.loc 64), s)

/-- R168: the recheck of one entry: a line that differs is a hit; one that equals its snapshot wakes the beam at most once
in 100 us, and where the home signals nothing (`unreg`) a store may always have been made (log entry 79, DEDUCED). An entry without a snapshot (log entry 62, DEDUCED) takes it here. An entry takes a table entry that is free. -/
def recheck (b j i : Nat) (any : Bool) (s : State) : State :=
  match (s.beamAt b j).watch[i]? with
  | none => s
  | some w =>
    if !w.ovf then s
    else
      let (line, s) := if any || w.unreg || w.snap = [] then s.lineNow b j w else (none, s)
      let set (f : WatchE → WatchE) (s : State) : State := s.setBeam b j (fun x => { x with watch := x.watch.mapIdx (fun n e => if n = i then f e else e) })
      let held : Bool := match (s.beamAt b j).overWake with | some t => s.now < t + 10000 | none => false
      let s : State := match line with
        | none => s
        | some bs =>
          if w.snap = [] && !w.signalled then set (fun e => { e with snap := bs }) s
          else if bs ≠ w.snap then (set (fun e => { e with hit := true, signalled := false, snap := bs }) s).setBeam b j (fun x => { x with overWake := some s.now })
          else if !any && !w.unreg then s
          else if held then set (fun e => { e with signalled := true }) s
          else (set (fun e => { e with hit := true, signalled := false }) s).setBeam b j (fun x => { x with overWake := some s.now })
      let waits := match (s.beamAt b j).watch[i]? with | some e => e.signalled | none => true
      if !w.unreg && !waits && s.watchUse (s.coreOf b) < 64 then set (fun e => { e with ovf := false, snap := [] }) s else s

/-- R168: rechecks the overflowed watches of a core. -/
def recheckCore (core : Nat) (s : State) : State :=
    let s := s.setCore core (fun k => { k with rechecked := s.now })
    let on := s.onCoreOf core
    let any := on.any (fun e => e.2.beams.any (fun x => x.2.watch.any (fun w => w.ovf && w.signalled)))
    on.foldl (fun s e => (e.2.beams.foldl (fun s x => (List.range x.2.watch.length).foldl (fun s i => s.recheck e.1 x.1 i any) s) s).settle e.1) s

/-- R166, R168: the rechecks of a core's overflowed watches that have asked another package for their line, and have its answer, go on at once. -/
def recheckAnswered (core : Nat) (s : State) : State :=
  (s.onCoreOf core).foldl (fun s e =>
    if s.fab.reqs.all (fun r => match r.2.who with | .watch b j => b != e.1 || j < 32 || r.2.answer.isNone | _ => true) then s
    else
      (e.2.beams.foldl (fun s x => (List.range x.2.watch.length).foldl (fun s i =>
        match (s.beamAt e.1 x.1).watch[i]? with
        | some w => if s.fab.reqs.any (fun r => r.2.who == .watch e.1 (x.1 + 32) && r.2.answer.isSome && w.loc = { sp := .remote r.2.msg.dst.toNat, addr := r.2.msg.addr.toNat }) then s.recheck e.1 x.1 i true else s
        | none => s) s) s).settle e.1) s

/-- R168: a recheck of a core is due, 1 µs after the last. -/
def recheckDue (s : State) (core ticks : Nat) : Bool := (s.core core).rechecked + 100 ≤ s.now + ticks

end State

/-- R168 WATCH_OVERFLOW_RECHECK: every 1 µs of reference time. -/
def execWatchOverflowRecheck (core : Nat) (s : State) : Out :=
  .next (if s.recheckDue core 0 then s.recheckCore core else s.recheckAnswered core)

end Sys2Proof.Machine
end

