-- ==== Sys2Proof/Machine/Dispatch.lean ====
section
/-! DEFINITION. The meaning of every instruction: one arm per constructor. -/

namespace Sys2Proof.Machine

/-- One instruction, issued by what `cur` names. -/
def exec (i : Instr) (s : State) : Host.Outcome State Fault Refusal :=
  match i with
  | .sadd d a b => Sys2Proof.Machine.execSadd d a b s
  | .ssub d a b => Sys2Proof.Machine.execSsub d a b s
  | .smul d a b => Sys2Proof.Machine.execSmul d a b s
  | .smulh d a b => Sys2Proof.Machine.execSmulh d a b s
  | .smulhu d a b => Sys2Proof.Machine.execSmulhu d a b s
  | .sand d a b => Sys2Proof.Machine.execSand d a b s
  | .sor d a b => Sys2Proof.Machine.execSor d a b s
  | .sxor d a b => Sys2Proof.Machine.execSxor d a b s
  | .sshl d a b => Sys2Proof.Machine.execSshl d a b s
  | .sshr d a b => Sys2Proof.Machine.execSshr d a b s
  | .ssra d a b => Sys2Proof.Machine.execSsra d a b s
  | .sslt d a b => Sys2Proof.Machine.execSslt d a b s
  | .ssltu d a b => Sys2Proof.Machine.execSsltu d a b s
  | .smin d a b => Sys2Proof.Machine.execSmin d a b s
  | .smax d a b => Sys2Proof.Machine.execSmax d a b s
  | .sclz d a => Sys2Proof.Machine.execSclz d a s
  | .spopc d a => Sys2Proof.Machine.execSpopc d a s
  | .saddi d a k => Sys2Proof.Machine.execSaddi d a k s
  | .sandi d a k => Sys2Proof.Machine.execSandi d a k s
  | .sori d a k => Sys2Proof.Machine.execSori d a k s
  | .sxori d a k => Sys2Proof.Machine.execSxori d a k s
  | .sshli d a k => Sys2Proof.Machine.execSshli d a k s
  | .sshri d a k => Sys2Proof.Machine.execSshri d a k s
  | .ssrai d a k => Sys2Proof.Machine.execSsrai d a k s
  | .sslti d a k => Sys2Proof.Machine.execSslti d a k s
  | .ssltiu d a k => Sys2Proof.Machine.execSsltiu d a k s
  | .slui d k => Sys2Proof.Machine.execSlui d k s
  | .sld d a w off => Sys2Proof.Machine.execSld d a w off s
  | .sst d a w off => Sys2Proof.Machine.execSst d a w off s
  | .samo d a b op w o sc => Sys2Proof.Machine.execSamo d a b op w o sc s
  | .samoLoad d a w o sc => Sys2Proof.Machine.execSamoLoad d a w o sc s
  | .samoStore a b w o sc => Sys2Proof.Machine.execSamoStore a b w o sc s
  | .scas d a b w o sc => Sys2Proof.Machine.execScas d a b w o sc s
  | .sb c a b off => Sys2Proof.Machine.execSb c a b off s
  | .sjal d off => Sys2Proof.Machine.execSjal d off s
  | .sjr d a k => Sys2Proof.Machine.execSjr d a k s
  | .lrun a k => Sys2Proof.Machine.execLrun a k s
  | .lwait => Sys2Proof.Machine.execLwait s
  | .upush a => Sys2Proof.Machine.execUpush a s
  | .sgetw d k => Sys2Proof.Machine.execSgetw d k s
  | .rgive n => Sys2Proof.Machine.execRgive n s
  | .rclaim n => Sys2Proof.Machine.execRclaim n s
  | .seal d a b => Sys2Proof.Machine.execSeal d a b s
  | .mcommit => Sys2Proof.Machine.execMcommit s
  | .sysr d r => Sys2Proof.Machine.execSysr d r s
  | .sysw r a => Sys2Proof.Machine.execSysw r a s
  | .trap k => Sys2Proof.Machine.execTrap k s
  | .eret => Sys2Proof.Machine.execEret s
  | .sfence k sc => Sys2Proof.Machine.execSfence k sc s
  | .tenq a b => Sys2Proof.Machine.execTenq a b s
  | .tfork d a => Sys2Proof.Machine.execTfork d a s
  | .tjoin a b => Sys2Proof.Machine.execTjoin a b s
  | .trigger => Sys2Proof.Machine.execTrigger s
  | .texit => Sys2Proof.Machine.execTexit s
  | .tyield => Sys2Proof.Machine.execTyield s
  | .bar k => Sys2Proof.Machine.execBar k s
  | .boinit a b k => Sys2Proof.Machine.execBoinit a b k s
  | .boarrive a => Sys2Proof.Machine.execBoarrive a s
  | .boexpect a b k => Sys2Proof.Machine.execBoexpect a b k s
  | .bowait a ph => Sys2Proof.Machine.execBowait a ph s
  | .botest d a => Sys2Proof.Machine.execBotest d a s
  | .watch a => Sys2Proof.Machine.execWatch a s
  | .waitw d a nt => Sys2Proof.Machine.execWaitw d a nt s
  | .iadd x => Sys2Proof.Machine.execIadd x s
  | .isub x => Sys2Proof.Machine.execIsub x s
  | .imul x => Sys2Proof.Machine.execImul x s
  | .imulh x => Sys2Proof.Machine.execImulh x s
  | .imulhu x => Sys2Proof.Machine.execImulhu x s
  | .imad x => Sys2Proof.Machine.execImad x s
  | .imin x => Sys2Proof.Machine.execImin x s
  | .imax x => Sys2Proof.Machine.execImax x s
  | .iminu x => Sys2Proof.Machine.execIminu x s
  | .imaxu x => Sys2Proof.Machine.execImaxu x s
  | .iabs x => Sys2Proof.Machine.execIabs x s
  | .ilop x => Sys2Proof.Machine.execIlop x s
  | .ishl x => Sys2Proof.Machine.execIshl x s
  | .ishr x => Sys2Proof.Machine.execIshr x s
  | .isra x => Sys2Proof.Machine.execIsra x s
  | .ifsh x => Sys2Proof.Machine.execIfsh x s
  | .icmp x => Sys2Proof.Machine.execIcmp x s
  | .isel x => Sys2Proof.Machine.execIsel x s
  | .popc x => Sys2Proof.Machine.execPopc x s
  | .clz x => Sys2Proof.Machine.execClz x s
  | .brev x => Sys2Proof.Machine.execBrev x s
  | .bfx x => Sys2Proof.Machine.execBfx x s
  | .bfi x => Sys2Proof.Machine.execBfi x s
  | .bperm x => Sys2Proof.Machine.execBperm x s
  | .imov x => Sys2Proof.Machine.execImov x s
  | .imovx x => Sys2Proof.Machine.execImovx x s
  | .iadds x => Sys2Proof.Machine.execIadds x s
  | .fadd x => Sys2Proof.Machine.execFadd x s
  | .fsub x => Sys2Proof.Machine.execFsub x s
  | .fmul x => Sys2Proof.Machine.execFmul x s
  | .ffma x => Sys2Proof.Machine.execFfma x s
  | .fmin x => Sys2Proof.Machine.execFmin x s
  | .fmax x => Sys2Proof.Machine.execFmax x s
  | .fcmp x => Sys2Proof.Machine.execFcmp x s
  | .fclass x => Sys2Proof.Machine.execFclass x s
  | .hadd2 x => Sys2Proof.Machine.execHadd2 x s
  | .hmul2 x => Sys2Proof.Machine.execHmul2 x s
  | .hfma2 x => Sys2Proof.Machine.execHfma2 x s
  | .cvt x => Sys2Proof.Machine.execCvt x s
  | .cvts x => Sys2Proof.Machine.execCvts x s
  | .pack x => Sys2Proof.Machine.execPack x s
  | .unpk x => Sys2Proof.Machine.execUnpk x s
  | .idp4 x => Sys2Proof.Machine.execIdp4 x s
  | .idp8 x => Sys2Proof.Machine.execIdp8 x s
  | .fdp8 x => Sys2Proof.Machine.execFdp8 x s
  | .fdp4 x => Sys2Proof.Machine.execFdp4 x s
  | .frcp x => Sys2Proof.Machine.execFrcp x s
  | .frsq x => Sys2Proof.Machine.execFrsq x s
  | .fsqrt x => Sys2Proof.Machine.execFsqrt x s
  | .fexp2 x => Sys2Proof.Machine.execFexp2 x s
  | .flog2 x => Sys2Proof.Machine.execFlog2 x s
  | .fsin x => Sys2Proof.Machine.execFsin x s
  | .fcos x => Sys2Proof.Machine.execFcos x s
  | .ftanh x => Sys2Proof.Machine.execFtanh x s
  | .lclock x => Sys2Proof.Machine.execLclock x s
  | .shfl x => Sys2Proof.Machine.execShfl x s
  | .vote x => Sys2Proof.Machine.execVote x s
  | .redux x => Sys2Proof.Machine.execRedux x s
  | .scan x => Sys2Proof.Machine.execScan x s
  | .match x => Sys2Proof.Machine.execMatch x s
  | .lpart x => Sys2Proof.Machine.execLpart x s
  | .lelect x => Sys2Proof.Machine.execLelect x s
  | .lrand x => Sys2Proof.Machine.execLrand x s
  | .lbr x => Sys2Proof.Machine.execLbr x s
  | .ljmp x => Sys2Proof.Machine.execLjmp x s
  | .ljoin x => Sys2Proof.Machine.execLjoin x s
  | .lbrk x => Sys2Proof.Machine.execLbrk x s
  | .lend x => Sys2Proof.Machine.execLend x s
  | .lkill x => Sys2Proof.Machine.execLkill x s
  | .lnop x => Sys2Proof.Machine.execLnop x s
  | .ld x => Sys2Proof.Machine.execLd x s
  | .st x => Sys2Proof.Machine.execSt x s
  | .atom x => Sys2Proof.Machine.execAtom x s
  | .acas x => Sys2Proof.Machine.execAcas x s
  | .pref x => Sys2Proof.Machine.execPref x s
  | .cvta x => Sys2Proof.Machine.execCvta x s
  | .isap x => Sys2Proof.Machine.execIsap x s
  | .fence x => Sys2Proof.Machine.execFence x s
  | .secopy x => Sys2Proof.Machine.execSecopy x s
  | .segath x => Sys2Proof.Machine.execSegath x s
  | .sefence x => Sys2Proof.Machine.execSefence x s
  | .mlds x => Sys2Proof.Machine.execMlds x s
  | .mflip x => Sys2Proof.Machine.execMflip x s
  | .mstr x => Sys2Proof.Machine.execMstr x s
  | .mdrain x => Sys2Proof.Machine.execMdrain x s
  | .mzero x => Sys2Proof.Machine.execMzero x s
  | .mfuse x => Sys2Proof.Machine.execMfuse x s
  | .mwait x => Sys2Proof.Machine.execMwait x s
  | .lmark x => Sys2Proof.Machine.execLmark x s
  | .glde d f => Sys2Proof.Machine.execGlde d f s
  | .gldc d k => Sys2Proof.Machine.execGldc d k s
  | .gadd d a b => Sys2Proof.Machine.execGadd d a b s
  | .gaddImm d a k => Sys2Proof.Machine.execGaddImm d a k s
  | .gsub d a b => Sys2Proof.Machine.execGsub d a b s
  | .gsubImm d a k => Sys2Proof.Machine.execGsubImm d a k s
  | .gand d a b => Sys2Proof.Machine.execGand d a b s
  | .gandImm d a k => Sys2Proof.Machine.execGandImm d a k s
  | .gor d a b => Sys2Proof.Machine.execGor d a b s
  | .gorImm d a k => Sys2Proof.Machine.execGorImm d a k s
  | .gshl d a b => Sys2Proof.Machine.execGshl d a b s
  | .gshlImm d a k => Sys2Proof.Machine.execGshlImm d a k s
  | .gshr d a b => Sys2Proof.Machine.execGshr d a b s
  | .gshrImm d a k => Sys2Proof.Machine.execGshrImm d a k s
  | .gmin d a b => Sys2Proof.Machine.execGmin d a b s
  | .gminImm d a k => Sys2Proof.Machine.execGminImm d a k s
  | .gmax d a b => Sys2Proof.Machine.execGmax d a b s
  | .gmaxImm d a k => Sys2Proof.Machine.execGmaxImm d a k s
  | .gskip c a b n => Sys2Proof.Machine.execGskip c a b n s
  | .ghist a b o => Sys2Proof.Machine.execGhist a b o s
  | .gsketch a b o => Sys2Proof.Machine.execGsketch a b o s
  | .gcount a o => Sys2Proof.Machine.execGcount a o s
  | .gsample a b o => Sys2Proof.Machine.execGsample a b o s
  | .gtrig a b o => Sys2Proof.Machine.execGtrig a b o s
  | .gend => Sys2Proof.Machine.execGend s
  | .regionStart blk beam => Sys2Proof.Machine.execRegionStart blk beam s
  | .fragmentFirstIssue blk beam rec => Sys2Proof.Machine.execFragmentFirstIssue blk beam rec s
  | .fragmentRecordClear blk beam rec => Sys2Proof.Machine.execFragmentRecordClear blk beam rec s
  | .faultReplay blk beam => Sys2Proof.Machine.execFaultReplay blk beam s
  | .waitwWake blk beam => Sys2Proof.Machine.execWaitwWake blk beam s
  | .waitwTimeout blk beam => Sys2Proof.Machine.execWaitwTimeout blk beam s
  | .watchOverflowRecheck core => Sys2Proof.Machine.execWatchOverflowRecheck core s
  | .watchdogExpiry blk beam => Sys2Proof.Machine.execWatchdogExpiry blk beam s
  | .claimGrant blk => Sys2Proof.Machine.execClaimGrant blk s
  | .barComplete blk k => Sys2Proof.Machine.execBarComplete blk k s
  | .boUpdatePerform core => Sys2Proof.Machine.execBoUpdatePerform core s
  | .bowaitWake blk beam => Sys2Proof.Machine.execBowaitWake blk beam s
  | .seEntryStart core q => Sys2Proof.Machine.execSeEntryStart core q s
  | .seFaultResume core q => Sys2Proof.Machine.execSeFaultResume core q s
  | .entryCompletion core q => Sys2Proof.Machine.execEntryCompletion core q s
  | .sefenceArrive core q => Sys2Proof.Machine.execSefenceArrive core q s
  | .mldsComplete core => Sys2Proof.Machine.execMldsComplete core s
  | .mflipEffect core => Sys2Proof.Machine.execMflipEffect core s
  | .mstrComplete core => Sys2Proof.Machine.execMstrComplete core s
  | .mzeroComplete core => Sys2Proof.Machine.execMzeroComplete core s
  | .mfuseEffect core => Sys2Proof.Machine.execMfuseEffect core s
  | .mwaitWake blk beam => Sys2Proof.Machine.execMwaitWake blk beam s
  | .accExchange core ctx => Sys2Proof.Machine.execAccExchange core ctx s
  | .handlerStart blk => Sys2Proof.Machine.execHandlerStart blk s
  | .blockTerminate blk => Sys2Proof.Machine.execBlockTerminate blk s
  | .blockPlacement task core => Sys2Proof.Machine.execBlockPlacement task core s
  | .blockRetire blk => Sys2Proof.Machine.execBlockRetire blk s
  | .knock ctx cause => Sys2Proof.Machine.execKnock ctx cause s
  | .boundarySave ctx => Sys2Proof.Machine.execBoundarySave ctx s
  | .shutter ctx => Sys2Proof.Machine.execShutter ctx s
  | .evict ctx => Sys2Proof.Machine.execEvict ctx s
  | .contextRestore ctx cluster => Sys2Proof.Machine.execContextRestore ctx cluster s
  | .calendarSlotBoundary core => Sys2Proof.Machine.execCalendarSlotBoundary core s
  | .inFieldTest cluster => Sys2Proof.Machine.execInFieldTest cluster s
  | .testDeferred cluster => Sys2Proof.Machine.execTestDeferred cluster s
  | .debugBreak blk req freeze => Sys2Proof.Machine.execDebugBreak blk req freeze s
  | .debugStep blk beam req lane => Sys2Proof.Machine.execDebugStep blk beam req lane s
  | .mirrorTrapTimeout blk => Sys2Proof.Machine.execMirrorTrapTimeout blk s
  | .deferredCredit die => Sys2Proof.Machine.execDeferredCredit die s
  | .taskEnd task => Sys2Proof.Machine.execTaskEnd task s
  | .revStoreTimeout blk beam => Sys2Proof.Machine.execRevStoreTimeout blk beam s
  | .shootdown id => Sys2Proof.Machine.execShootdown id s
  | .tableRebuild tenant die => Sys2Proof.Machine.execTableRebuild tenant die s
  | .dirtyLogSpace tenant => Sys2Proof.Machine.execDirtyLogSpace tenant s
  | .patrol die line found => Sys2Proof.Machine.execPatrol die line found s
  | .scrub die passed => Sys2Proof.Machine.execScrub die passed s
  | .cleanPoolGrant die => Sys2Proof.Machine.execCleanPoolGrant die s
  | .softRepair row => Sys2Proof.Machine.execSoftRepair row s
  | .softRepairEnd die => Sys2Proof.Machine.execSoftRepairEnd die s
  | .lanternEvent die e tick => Sys2Proof.Machine.execLanternEvent die e tick s
  | .filterRun die => Sys2Proof.Machine.execFilterRun die s
  | .lanternWindow die => Sys2Proof.Machine.execLanternWindow die s
  | .lanternExport die filter => Sys2Proof.Machine.execLanternExport die filter s
  | .lanternSramError die filter => Sys2Proof.Machine.execLanternSramError die filter s
  | .packageReset => Sys2Proof.Machine.execPackageReset s
  | .dsrrootWrite addr => Sys2Proof.Machine.execDsrrootWrite addr s
  | .hostSnoop addr => Sys2Proof.Machine.execHostSnoop addr s
  | .sweep => Sys2Proof.Machine.execSweep s
  | .recordReadRetry area slot => Sys2Proof.Machine.execRecordReadRetry area slot s
  | .reconcilePass => Sys2Proof.Machine.execReconcilePass s
  | .programLoadResume id => Sys2Proof.Machine.execProgramLoadResume id s
  | .tenantStop id => Sys2Proof.Machine.execTenantStop id s
  | .throttle core step => Sys2Proof.Machine.execThrottle core step s
  | .criticalTrip core => Sys2Proof.Machine.execCriticalTrip core s
  | .getVersion req => Sys2Proof.Machine.execGetVersion req s
  | .getCapabilities req => Sys2Proof.Machine.execGetCapabilities req s
  | .negotiateAlgorithms req => Sys2Proof.Machine.execNegotiateAlgorithms req s
  | .getDigests req => Sys2Proof.Machine.execGetDigests req s
  | .getCertificate req => Sys2Proof.Machine.execGetCertificate req s
  | .challenge req => Sys2Proof.Machine.execChallenge req s
  | .getMeasurements req => Sys2Proof.Machine.execGetMeasurements req s
  | .fabricRead m => Sys2Proof.Machine.execFabricRead m s
  | .fabricWrite m => Sys2Proof.Machine.execFabricWrite m s
  | .fabricAtomic m => Sys2Proof.Machine.execFabricAtomic m s
  | .fabricData m => Sys2Proof.Machine.execFabricData m s
  | .fabricAck m => Sys2Proof.Machine.execFabricAck m s
  | .fabricErr m => Sys2Proof.Machine.execFabricErr m s
  | .fabricWatch m => Sys2Proof.Machine.execFabricWatch m s
  | .fabricHit m => Sys2Proof.Machine.execFabricHit m s
  | .fabricUnwatch m => Sys2Proof.Machine.execFabricUnwatch m s
  | .heartbeat m => Sys2Proof.Machine.execHeartbeat m s
  | .heartbeatSend => Sys2Proof.Machine.execHeartbeatSend s
  | .fabricManagement c => Sys2Proof.Machine.execFabricManagement c s
  | .linkReplay port f => Sys2Proof.Machine.execLinkReplay port f s
  | .linkRetrain port f => Sys2Proof.Machine.execLinkRetrain port f s
  | .xoff port bits => Sys2Proof.Machine.execXoff port bits s
  | .peerRecovering node => Sys2Proof.Machine.execPeerRecovering node s
  | .peerLost node => Sys2Proof.Machine.execPeerLost node s
  | .portDown port => Sys2Proof.Machine.execPortDown port s
  | .hostCxlMemAccess addr store data => Sys2Proof.Machine.execHostCxlMemAccess addr store data s
  | .cxlCacheSnoop addr data => Sys2Proof.Machine.execCxlCacheSnoop addr data s
  | .debugResume blk => Sys2Proof.Machine.execDebugResume blk s
  | .inFieldTestEnd cluster passed => Sys2Proof.Machine.execInFieldTestEnd cluster passed s
  | .quadrantEntryStart core => Sys2Proof.Machine.execQuadrantEntryStart core s
  | .unknownOpMessage m => Sys2Proof.Machine.execUnknownOpMessage m s

end Sys2Proof.Machine
end

