-- ==== Sys2Proof/Machine/Sched.lean ====
section
/-! DEFINITION. What moves next when the agenda is empty (log entry 16, DESIGN CHOICE), the passing of time, and the placement of one
instruction where the next step fetches. -/

namespace Sys2Proof.Machine
namespace State

/-- The turns of one resident block: its streams and the events of its waits. -/
def blockTurns (s : State) (b : Nat) : List Turn :=
  let k := s.block b
  if !k.resident || k.ended then []
  else
    (match k.halt with
      | some h =>
        match h.stage with
        | .signalled => [.event (.handlerStart b), .event (.blockTerminate b)]
        | .partner => [.event (.handlerStart b), .event (.mirrorTrapTimeout b)]
        | .ending => [.event (.blockTerminate b)]
        | .stopped => [.event (.handlerStart b), .event (.blockTerminate b)]
        | _ => []
      | none => [])
    ++ (if k.liveBeams.isEmpty then [.event (.blockRetire b)] else [])
    ++ (if k.beams.any (fun e => e.2.watch.any (·.ovf)) then [.event (.watchOverflowRecheck k.core)] else [])
    ++ (if k.beams.any (fun e => match e.2.spark with | .claim _ _ => true | _ => false) then [.event (.claimGrant b)] else [])
    ++ (List.range 17).filterMap (fun n => if k.beams.any (fun e => e.2.spark == .bar n) then some (.event (.barComplete b n)) else none)
    ++ k.beams.flatMap (fun e =>
      let j := e.1
      let x := e.2
      if x.exited then x.clears.map (fun r => .event (.fragmentRecordClear b j r)) ++ (List.range x.late.length).map (fun k => .perform b j k)
      else
        (match x.spark with
          | .bowait _ _ => [Turn.event (.bowaitWake b j)]
          | .waitw _ _ _ _ => [.event (.waitwWake b j), .event (.waitwTimeout b j), .event (.watchdogExpiry b j)]
          | .fork _ _ _ => [.event (.revStoreTimeout b j), .scalar b j]
          | .fault _ false => [.event (.faultReplay b j)]
          | y => if eventPark y then [] else [.scalar b j])
        ++ (if !x.running && !x.regions.isEmpty then [.event (.regionStart b j)] else [])
        ++ (if (x.unitIds.filterMap x.unit).any (fun y => match y.held with | some h => !h.ready | none => false) then [.event (.faultReplay b j)] else [])
        ++ (if (x.unitIds.filterMap x.unit).any (fun y => y.mwait.isSome) then [.event (.mwaitWake b j)] else [])
        ++ (x.frags.filter (fun f => f.2.queued)).map (fun f => .event (.fragmentFirstIssue b j f.1))
        ++ x.unitIds.map (fun u => .lane b j u)
        ++ (List.range x.late.length).map (fun k => .perform b j k)
        ++ x.clears.map (fun r => .event (.fragmentRecordClear b j r)))

/-- The turns of one core's engines. -/
def coreTurns (s : State) (c : Nat) : List Turn :=
  let k := s.core c
  (if k.boPend.isEmpty then [] else [.event (.boUpdatePerform c)])
  ++ (match k.accReq with | some x => [.event (.accExchange c x)] | none => [])
  ++ [0, 1, 2, 3].flatMap (fun q => if (k.se.get q []).isEmpty then [] else [.event (.seEntryStart c q), .event (.seFaultResume c q), .event (.sefenceArrive c q), .event (.entryCompletion c q)])
  ++ (if k.quad.isEmpty then [] else [.event (.mldsComplete c), .event (.mflipEffect c), .event (.quadrantEntryStart c), .event (.mstrComplete c), .event (.entryCompletion c 4), .event (.mzeroComplete c), .event (.mfuseEffect c)])

/-- The turns of the dies. -/
def dieTurns (s : State) : List Turn :=
  [0, 1, 2, 3].flatMap (fun d =>
    let x := s.die d
    (if x.scrubq.isEmpty then [] else [.event (.scrub d true)])
    ++ (x.rows.filter (fun r => s.qualifies r.row)).map (fun r => .event (.softRepair r.row))
    ++ (if x.quiesce.isSome then [.event (.softRepairEnd d)] else [])
    ++ (if x.deferred.isEmpty then [] else [.event (.deferredCredit d)])
    ++ (if x.waitq.isEmpty then [] else [.event (.cleanPoolGrant d)])
    ++ (if x.lan.run.isSome then [.lantern d] else if !x.lan.fifo.isEmpty || !x.lan.todo.isEmpty then [.event (.filterRun d)] else [])
    ++ (if s.filters.any (fun f => f.2.die = d) then [.event (.lanternWindow d)] else [])
    ++ (s.filters.filter (fun f => f.2.die = d && f.2.due)).map (fun f => .event (.lanternExport d f.1)))

/-- The cores on which a waiting task's next block could be placed, in ascending order; placement checks the rest. -/
def placeTurns (s : State) : List Turn :=
  s.tasks.flatMap (fun e =>
    let t := e.2
    let want := t.lr.nblocks
    if t.ready.isSome && t.placed < (if want = 0 then 1 else want) && !t.ended then
      ((List.range 384).filter (fun c => t.dies.testBit (c / 96) && ((s.tenant t.tenant).hard.testBit c || (s.tenant t.tenant).shared.testBit c))).take 8 |>.map (fun c => .event (.blockPlacement e.1 c))
    else []) ++ (s.tasks.filter (fun e => !e.2.ended)).map (fun e => .event (.taskEnd e.1))

/-- The turns of the package's own agents. -/
def packageTurns (s : State) : List Turn :=
  (if s.recon.root.isSome then [.event .reconcilePass] ++ (if s.recon.lastSweep + 1000000 ≤ s.now then [.event .sweep] else []) else [])
  ++ (s.recon.slots.filter (fun e => 0 < e.2.retries)).map (fun e => .event (.recordReadRetry (e.1 / 65536) (e.1 % 65536)))
  ++ (s.maps.filter (fun e => !e.2.conv)).map (fun e => .event (.shootdown e.1))
  ++ s.ladders.flatMap (fun e => [.event (.boundarySave e.1), .event (.shutter e.1), .event (.evict e.1), .event (.contextRestore e.1 (s.restoreCluster e.1))])
  ++ s.tests.flatMap (fun e => [.event (.inFieldTest e.1), .event (.testDeferred e.1), .event (.inFieldTestEnd e.1 true)])
  ++ (s.progs.filter (fun e => e.2.stage < 3)).map (fun e => .event (.programLoadResume e.1))
  ++ (s.tenants.filter (fun e => e.2.full)).map (fun e => .event (.dirtyLogSpace e.1))
  ++ s.recon.stopping.map (fun t => .event (.tenantStop t))
  ++ (if s.tenants.all (fun t => t.2.shared = 0) then [] else
      ((List.range 384).filter (fun c => s.tenants.any (fun t => t.2.shared.testBit c))).map (fun c => .event (.calendarSlotBoundary c)))
  ++ (if s.fab.node.isSome then [.event .heartbeatSend] else [])
  ++ (s.fab.peers.filter (fun e => e.2.state = 1)).map (fun e => .event (.peerRecovering e.2.node))
  ++ (s.fab.peers.filter (fun e => e.2.state = 2)).map (fun e => .event (.peerLost e.2.node))

/-- The event that serves a message. -/
def msgEvent (m : FMsg) : Instr :=
  match m.op.toNat with
  | 1 => .fabricRead m | 2 => .fabricWrite m | 3 => .fabricAtomic m | 4 => .fabricData m | 5 => .fabricAck m | 6 => .fabricWatch m
  | 7 => .fabricHit m | 8 => .fabricUnwatch m | 9 => .heartbeat m | 10 => .fabricErr m | _ => .unknownOpMessage m
/-- R352: the messages at the front of the ports' buffers are served. -/
def linkTurns (s : State) : List Turn :=
  s.fab.links.flatMap (fun l => l.2.rx.filterMap (fun b => (frontMsg b.2).map (fun x => .event (msgEvent x.1))))
/-- R222: the contexts that a calendar's SHUTTER has stopped for too long. -/
def evictTurns (s : State) : List Turn := (s.ctxsOf (s.blocksOf s.overdue)).map (fun x => .event (.evict x))

/-- Every turn that could be taken, with the passing of one ref tick (21 clk) last. -/
def candidates (s : State) : List Turn :=
  s.blocks.flatMap (fun e => s.blockTurns e.1) ++ s.cores.flatMap (fun e => s.coreTurns e.1) ++ s.dieTurns ++ s.placeTurns ++ s.packageTurns ++ s.linkTurns
    ++ s.evictTurns ++ [.elapse 21]

/-- The model's own choice of the next turn: the candidates in rotation; of a beam whose lit and shade slots are both ready, the one
that is due (R171). -/
def autoTurn (s : State) : Turn :=
  let cs := s.candidates
  match cs[s.rr % cs.length]? with
  | some (.lane b j u) => if u ≤ 1 && s.mayLane b j 0 && s.mayLane b j 1 then .lane b j (s.beamAt b j).due else .lane b j u
  | some t => t
  | none => .elapse 21

/-- R360: the watchdog's count of a parked WAITW, suspended while a watched line homes on a RECOVERING node. -/
def countPark (s : State) (ticks : Nat) (x : Beam) : Beam :=
  match x.spark with
  | .waitw dl nt t counted =>
    if x.watch.any (fun e => match watchNode e with | some n => (s.peer n).state = 2 | none => false) then x
    else { x with spark := .waitw dl nt t (counted + ticks) }
  | _ => x

/-- R166, R168, R280: the time for which a parked WAITW of a block that runs has held a hit, or the signal of a store to an overflowed line; not
while the line's channel is quiesced. -/
def countHit (s : State) (ticks : Nat) (x : Beam) : Beam :=
  match x.spark with
  | .waitw _ _ _ _ => if x.watch.any (fun e => (e.hit || e.signalled) && !s.quiesced e.loc) then { x with hitFor := x.hitFor + ticks } else x
  | _ => x

/-- The cores on which a beam watches an overflowed line. -/
def overCores (s : State) : List Nat :=
  ((s.blocks.filter (fun e => e.2.resident && !e.2.ended && e.2.beams.any (fun x => x.2.watch.any (·.ovf)))).map (fun e => e.2.core)).eraseDups

/-- What must happen before `ticks` ref ticks pass: rechecks that fall due (R168), and the wake of each WAITW whose bound would
be exceeded (R166). -/
def meetBounds (ticks : Nat) (s : State) : State :=
  let s := (s.overCores).foldl (fun s c => if s.recheckDue c ticks then s.recheckCore c else s.recheckAnswered c) s
  s.blocks.foldl (fun s e => e.2.beams.foldl (fun s x => if s.wakeDue e.1 x.1 ticks then s.wakeWait e.1 x.1 else s) s) s

/-- R2: clk pass, of which 21 make one ref tick, and of which a core throttled by k steps counts one in k + 1 (log entry
17, DESIGN CHOICE). What each word takes is not modelled (log entry 2, DESIGN CHOICE). -/
def pass (clks : Nat) (s : State) : State :=
  let ticks := (s.subtick + clks) / 21
  let s := s.meetBounds ticks
  { s with
    blocks := s.blocks.mapV (fun _ k => if k.resident && !k.ended then { k with beams := k.beams.mapV (fun _ x => if k.halt.isNone then s.countHit ticks (s.countPark ticks x) else s.countPark ticks x) } else k)
    reftime := s.reftime + BitVec.ofNat 64 ticks
    subtick := (s.subtick + clks) % 21
    clk := s.clk + BitVec.ofNat 64 clks
    cores := s.cores.mapV (fun _ k => { k with lag := k.lag + BitVec.ofNat 64 (clks - clks / (k.throttle + 1)) }) }

/-- R2, R168: time passes; while overflowed lines are watched it does so by no more than 1 µs, which is 2,100 clk, at a time: each of them is
rechecked so often. -/
def elapseBy : Nat → Nat → State → State
  | 0, clks, s => s.pass clks
  | n + 1, clks, s => if clks ≤ 2100 || s.overCores.isEmpty then s.pass clks else elapseBy n (clks - 2100) (s.pass 2100)
def elapse (clks : Nat) (s : State) : State := elapseBy (clks / 2100) clks s

/-- A resident block of one running beam whose code is one scalar word (log entry 18, DESIGN CHOICE). -/
def placeWord (w : W32) (s : State) : State :=
  let s := if s.mayScalar 0 0 then s else
    { s with
      blocks := s.blocks.put 0 { regg := 1, scrg := 1, beams := [(0, { role := 1, units := 3 })] }
      tasks := s.tasks.put 0 { ver := 1, placed := 1 } }
  let t := s.taskOf 0
  let p := s.progs.get t.prog default
  let s := { s with progs := s.progs.put t.prog { p with versions := p.versions.put t.ver { scode := [w], lcode := (s.codeOf 0).lcode } } }
  let s := s.setBeam 0 0 (fun x => { x with spc := 0, spark := .none })
  { s with agenda := .scalar 0 0 :: s.agenda }

/-- The same for a lane word: the lit slot of a running region stands before it. -/
def placeLane (w : BitVec 96) (s : State) : State :=
  let s := s.placeWord 0
  let t := s.taskOf 0
  let p := s.progs.get t.prog default
  let s := { s with progs := s.progs.put t.prog { p with versions := p.versions.put t.ver { scode := [], lcode := [w] } } }
  let s := s.setBeam 0 0 (fun x => { x with regions := [{}], running := true, lit := some { mask := x.live (BitVec.allOnes 32) }, shade := none, frags := [] })
  { s with agenda := .lane 0 0 0 :: s.agenda.drop 1 }

/-- The same for a Lantern word: a filter of one word runs on die 0. -/
def placeLantern (w : W32) (s : State) : State :=
  let s := { s with filters := s.filters.put 0 { words := [w] } }
  let s := s.setLantern 0 (fun l => { l with run := some 0, wordIx := 0, words := 0 })
  { s with agenda := .lantern 0 :: s.agenda }

/-- R291: the next word of the Lantern run of a die, if one runs. -/
def fetchLantern (d : Nat) (s : State) : Option (Option Instr × State) :=
  match (s.lantern d).run with
  | none => none
  | some f =>
    let w := ((s.filters.get f default).words)[(s.lantern d).wordIx]?
    some (w.bind (fun w => decodeLantern w.toNat), { s with cur := { die := d } })

/-- R52: runs the slots of a lane word in order; the second reads the lane registers as they stood before the first
(`regs`), and lanes that the first killed are not live in it (log entry 57, DEDUCED). Where an IMOVX names in a lane the register that the
other slot writes, the second slot wins (log entry 67, DESIGN CHOICE). -/
def runOps (ex : Instr → State → Out) (regs : Tab W32) : List (Nat × Tab W64 × Instr) → Flow → State → Out
  | [], f, s => .next (s.setCur (fun c => { c with flow := f, old := none }))
  | (k, q, i) :: r, f, s =>
    match ex i (s.setCur (fun c => { c with slot := k, uq := q, flow := .go, act := c.act &&& ~~~s.me.dead })) with
    | .next t =>
      match t.cur.flow with
      | .trapped c => .next (t.setCur (fun x => { x with flow := .trapped c, old := none }))
      | g => runOps ex regs r (joinFlow f g) (t.setCur (fun x => { x with old := some regs }))
    | o => o

/-- Is an instruction the scalar stream's plain store (R156). -/
def isPlainStore : Instr → Bool
  | .sst .. => true
  | _ => false

/-- R160, R216: does the scalar stream stand at an access that has issued: it awaits an answer, or replays after a page fault. -/
def scalarHeld (x : Beam) : Bool := match x.spark with | .remote _ | .fault _ _ => true | _ => false

/-- What an instruction that the scalar stream of a beam has issued, or gone on with, leaves: it counts as a skid word when it issues (R216); an
access that page-faults has issued, and its replay counts no more. -/
def scalarEnd (b j : Nat) (pre u : State) : State :=
  if !scalarHeld (pre.beamAt b j) && u.cur.flow != .jumped && ((u.cur.flow = .go && (u.beamAt b j).spark = .none) || scalarHeld (u.beamAt b j)) then u.countSkid b j 16 (pre.signalled b) else u

/-- R226: a step of a debugger's that word of a beam's scalar stream (`lane` false) or of its lane stream has done, is over: DEBUG.STEP is raised,
unless the word itself trapped. -/
def stepEnd (b j : Nat) (lane done : Bool) (u : State) : State :=
  match (u.block b).stepping with
  | some (i, r, l) =>
    if i = j && l = lane && (done || (match u.cur.flow with | .trapped _ => true | _ => false)) then
      let t := u.setBlock b (fun k => { k with stepping := none })
      if done then t.stepDone b j r else t
    else u
  | none => u

/-- A scalar turn: the next word of the beam issues if it may; a plain store may be left to be performed later (R84). -/
def scalarTurn (ex : Instr → State → Out) (later : Bool) (b j : Nat) (s : State) : Out :=
  match s.blocks.find b with
  | none => .fault .noIssuer
  | some k =>
    match k.beams.find j with
    | none => .fault .noIssuer
    | some _ =>
      if !s.mayScalar b j then .next s
      else
        match s.fetchScalar b j with
        | .ended t => .next (t.stepEnd b j false false)
        | .run (i, t) =>
          match ex i (if later && isPlainStore i then t.setCur (fun c => { c with later := 1 }) else t) with
          | .next u => .next (((scalarEnd b j s u).settle b).stepEnd b j false (u.cur.flow = .go && (u.beamAt b j).spark = .none))
          | o => o

/-- A lane turn: the next word of the unit issues if it may; the accesses of the lanes in `later` are left to be performed later (R84, R150):
those of other agents may fall between. -/
def laneTurn (ex : Instr → State → Out) (later : W32) (b j u : Nat) (s : State) : Out :=
  match s.blocks.find b with
  | none => .fault .noIssuer
  | some k =>
    match k.beams.find j with
    | none => .fault .noIssuer
    | some _ =>
      if !s.mayLane b j u then .next s
      else
        match s.fetchLane b j u with
        | .ended t => .next ((t.settle b).stepEnd b j true false)
        | .run p =>
          match runOps ex (p.s.beamAt b j).v p.ops .go (p.s.setCur (fun c => { c with later := later })) with
          | .next t => .next (((finishLane b j u s t).settle b).stepEnd b j true (t.cur.flow = .go || t.cur.flow = .jumped || (parkedUnit (t.beamAt b j) u && (heldOf (t.beamAt b j) u).isNone)))
          | o => o

/-- R84, R237: a late store is performed, with those that it may not pass, in the order of their issue. -/
def performTurn (b j k : Nat) (s : State) : State :=
  match (s.beamAt b j).late[k]? with
  | some e => s.performAt b j e.lane e.loc 1
  | none => s

/-- A Lantern turn: the next word of the run. -/
def lanternTurn (ex : Instr → State → Out) (d : Nat) (s : State) : Out :=
  match s.fetchLantern d with
  | none => .next s
  | some (none, _) => .fault .noLanternWord
  | some (some i, t) => ex i t

/-- One turn of one agent. -/
def turnWith (ex : Instr → State → Out) (t : Turn) (s : State) : Out :=
  match t with
  | .scalar b j => scalarTurn ex false b j s
  | .lane b j u => laneTurn ex 0 b j u s
  | .laneLater b j u lanes => laneTurn ex lanes b j u s
  | .scalarLater b j => scalarTurn ex true b j s
  | .perform b j k => .next (s.performTurn b j k)
  | .rowPart c q n => .next (s.rowPart c q n)
  | .lantern d => lanternTurn ex d s
  | .event i => ex i s
  | .elapse clks => .next (s.elapse clks)
  | .debugWrite b j w => .next (s.debugWrite b j w)
  | .l2Error w single => .next (s.l2Error w single)

/-- One step: the turn at the head of the agenda, or the model's own choice where the agenda is empty (log entry 16, DESIGN CHOICE). -/
def stepWith (ex : Instr → State → Out) (s : State) : Out :=
  match s.agenda with
  | t :: r => turnWith ex t { s with agenda := r }
  | [] => turnWith ex s.autoTurn { s with rr := s.rr + 1 }

/-- An instruction whose bits are `w`, placed where the next step fetches it (log entry 18, DESIGN CHOICE). -/
def place (nbits w : Nat) (s : State) : State :=
  if nbits ≤ 32 then
    match decodeScalar w with
    | .ok _ => s.placeWord (BitVec.ofNat 32 w)
    | .error _ => s.placeLantern (BitVec.ofNat 32 w)
  else s.placeLane (BitVec.ofNat 96 w)

end State
end Sys2Proof.Machine
end

