-- ==== Sys2Proof/Machine/Step.lean ====
section
/-! DEFINITION. One step of the machine, and the placement of one instruction where the next step fetches. -/

namespace Sys2Proof.Machine

/-- One step: one turn of one agent, its instruction run by `exec`. -/
def step (s : State) : Host.Outcome State Fault Refusal := State.stepWith exec s

/-- `s` with the instruction whose bits are `w` stored where the next step fetches (log entry 18, DESIGN CHOICE). -/
def State.withFetchWord (s : State) (nbits w : Nat) : State := s.place nbits w

end Sys2Proof.Machine
end

