-- ==== Sys2Proof/Certificates/Slice0/Obligations.lean ====
section
/-! DEFINITION. The statements for the provers. The predicates of the namespace `Claims` say once what an instruction of one
shape leaves, and what it leaves alone; the obligations apply them. -/

namespace Sys2Proof.Claims
open Sys2Proof Sys2Proof.Machine

/-- Only blocks, what is said of the word being issued, and the outstanding requests of the fabric may differ. -/
def onlyBlocks (s t : State) : Prop := t = { s with blocks := t.blocks, cur := t.cur, fab := { s.fab with reqs := t.fab.reqs } }

/-- Of the blocks, only beam `j` of block `b` differs: every other beam and block, and all memory, stands. -/
def onlyBeam (b j : Nat) (s t : State) : Prop :=
  onlyBlocks s t ∧ (∀ c, c ≠ b → t.block c = s.block c) ∧ t.block b = { s.block b with beams := (t.block b).beams }
    ∧ (∀ i, i ≠ j → t.beamAt b i = s.beamAt b i) ∧ ∀ l, t.peek l 1 = s.peek l 1

/-- A scalar instruction whose result is `x` in `s[d]`: s0 reads 0 whatever is written, every other scalar register
stands, the stream goes on at the next word, and nothing else of the beam or of the machine differs. -/
def scalarResult (d : BitVec 5) (x : W64) (s t : State) : Prop :=
  onlyBeam s.cur.blk s.cur.beam s t ∧ t.cur = s.cur ∧ t.fab = s.fab
    ∧ t.rs d = (if d = 0 then 0 else x) ∧ (∀ r, r ≠ d → t.rs r = s.rs r)
    ∧ t.me = { s.me with s := t.me.s, spc := s.me.spc + 1, spark := .none }

/-- A jump of the scalar stream to `pc` that writes `s[d]`. -/
def scalarJump (d : BitVec 5) (x pc : W64) (s t : State) : Prop :=
  onlyBeam s.cur.blk s.cur.beam s t ∧ t.cur = s.cur ∧ t.fab = s.fab
    ∧ t.rs d = (if d = 0 then 0 else x) ∧ (∀ r, r ≠ d → t.rs r = s.rs r)
    ∧ t.me = { s.me with s := t.me.s, spc := pc, spark := .none }

/-- R84, R237: the machine once the late stores that an access of the issuing scalar stream follows are performed: those in its 8-byte
units, and its stream's to the same other core. -/
def settled (l : Loc) (n : Nat) (s : State) : State := s.performAt s.cur.blk s.cur.beam none l n

/-- No request of the issuing scalar stream for an address is outstanding. -/
def unasked (a : W64) (s : State) : Prop := ∀ op n, s.asked s.whoMe op a.toNat n = none

/-- A read of `n` bytes at `a` by the issuing scalar stream passes every check and finds the bytes of `l`, homed in this
package. -/
def reachable (kind : Nat) (a : W64) (n : Nat) (l : Loc) (s : State) : Prop :=
  s.accessCause s.cur.blk s.cur.beam [(0, a)] n kind true = none
    ∧ (∃ page, s.locate s.cur.blk s.cur.beam 0 a false = .ok l page) ∧ ∀ node, l.sp ≠ .remote node

/-- It does so at its first issue, and meets no poison. -/
def readable (kind : Nat) (a : W64) (n : Nat) (l : Loc) (s : State) : Prop :=
  unasked a s ∧ reachable kind a n l s ∧ (settled l n s).poisonedAt l n = false

/-- A write likewise; it is not gated, its page needs no log entry, and a read-modify-write (kind 2) meets no poison. -/
def writable (kind : Nat) (a : W64) (n : Nat) (l : Loc) (page : Option (Nat × Nat × Nat)) (s : State) : Prop :=
  unasked a s ∧ s.accessCause s.cur.blk s.cur.beam [(0, a)] n kind true = none
    ∧ s.locate s.cur.blk s.cur.beam 0 a true = .ok l page
    ∧ (∀ node, l.sp ≠ .remote node) ∧ s.gated s.cur.blk l = false
    ∧ (∀ t base z, page = some (t, base, z) → (s.tenant t).dlbase = 0 ∨ (s.tenant t).dirty.contains base = true)
    ∧ (kind = 2 → (settled l n s).poisonedAt l n = false)

/-- The bytes of a store of `bs` at `l` are in memory, and every other byte reads as in `u`. -/
def storedAt (l : Loc) (bs : List Byte) (u t : State) : Prop :=
  t.peek l bs.length = bs ∧ ∀ k : Loc, (k.sp ≠ l.sp ∨ k.addr < l.addr ∨ l.addr + bs.length ≤ k.addr) → t.peek k 1 = u.peek k 1

/-- What the issuing beam's block reads at `l`, as a little-endian number. -/
def numberAt (l : Loc) (n : Nat) (s : State) : Nat := ofBytes (s.view s.cur.blk l n)

/-- R85 edge 4 is past: no earlier region runs, or the beam is in its handler. -/
def regionsPast (s : State) : Prop := s.me.regionsDone = true ∨ s.me.inHandler = true

/-- The scalar stream waits at its word for the reason `p`; nothing else differs. -/
def parked (p : SPark) (s t : State) : Prop :=
  onlyBeam s.cur.blk s.cur.beam s t ∧ t.cur = s.cur ∧ t.fab = s.fab ∧ t.me = { s.me with spark := p }

/-- Every die stands but for what its Lantern's intake took. -/
def onlyIntake (s t : State) : Prop := ∀ d, t.die d = { s.die d with lan := t.lantern d }

/-- Memory, registers of the other beams, tasks and records stand: what an instruction of one beam that a Lantern observes
leaves alone. -/
def beamAndIntake (s t : State) : Prop :=
  t = { s with blocks := t.blocks, dies := t.dies, cur := t.cur, fab := t.fab, free := t.free, ids := t.ids } ∧ onlyIntake s t
    ∧ (∀ c, c ≠ s.cur.blk → t.block c = s.block c) ∧ (∀ i, i ≠ s.cur.beam → t.beamAt s.cur.blk i = s.beamAt s.cur.blk i)
    ∧ ∀ l, t.peek l 1 = s.peek l 1

end Sys2Proof.Claims

open Sys2Proof Sys2Proof.Machine Sys2Proof.Claims

/-- R86: the register forms of the scalar stream. -/
def Sys2Proof.Claims.scalarRegisterForms : Prop :=
  ∀ (s : State) (d a b : BitVec 5),
    (∃ t, exec (.sadd d a b) s = .next t ∧ scalarResult d (s.rs a + s.rs b) s t)
    ∧ (∃ t, exec (.ssub d a b) s = .next t ∧ scalarResult d (s.rs a - s.rs b) s t)
    ∧ (∃ t, exec (.smul d a b) s = .next t ∧ scalarResult d (s.rs a * s.rs b) s t)
    ∧ (∃ t, exec (.smulh d a b) s = .next t ∧ scalarResult d (BitVec.ofInt 64 ((s.rs a).toInt * (s.rs b).toInt / 2 ^ 64)) s t)
    ∧ (∃ t, exec (.smulhu d a b) s = .next t ∧ scalarResult d (BitVec.ofNat 64 ((s.rs a).toNat * (s.rs b).toNat / 2 ^ 64)) s t)
    ∧ (∃ t, exec (.sand d a b) s = .next t ∧ scalarResult d (s.rs a &&& s.rs b) s t)
    ∧ (∃ t, exec (.sor d a b) s = .next t ∧ scalarResult d (s.rs a ||| s.rs b) s t)
    ∧ (∃ t, exec (.sxor d a b) s = .next t ∧ scalarResult d (s.rs a ^^^ s.rs b) s t)
    ∧ (∃ t, exec (.sshl d a b) s = .next t ∧ scalarResult d (s.rs a <<< ((s.rs b).toNat % 64)) s t)
    ∧ (∃ t, exec (.sshr d a b) s = .next t ∧ scalarResult d (s.rs a >>> ((s.rs b).toNat % 64)) s t)
    ∧ (∃ t, exec (.ssra d a b) s = .next t ∧ scalarResult d ((s.rs a).sshiftRight ((s.rs b).toNat % 64)) s t)
    ∧ (∃ t, exec (.sslt d a b) s = .next t ∧ scalarResult d (if (s.rs a).toInt < (s.rs b).toInt then 1 else 0) s t)
    ∧ (∃ t, exec (.ssltu d a b) s = .next t ∧ scalarResult d (if (s.rs a).toNat < (s.rs b).toNat then 1 else 0) s t)
    ∧ (∃ t, exec (.smin d a b) s = .next t ∧ scalarResult d (if (s.rs a).toInt < (s.rs b).toInt then s.rs a else s.rs b) s t)
    ∧ (∃ t, exec (.smax d a b) s = .next t ∧ scalarResult d (if (s.rs b).toInt < (s.rs a).toInt then s.rs a else s.rs b) s t)
    ∧ (∃ t, exec (.sclz d a) s = .next t ∧ ∃ n : Nat, scalarResult d (BitVec.ofNat 64 n) s t ∧ n ≤ 64
        ∧ (∀ i : Nat, i < n → (s.rs a).getLsbD (63 - i) = false) ∧ (n < 64 → (s.rs a).getLsbD (63 - n) = true))
    ∧ (∃ t, exec (.spopc d a) s = .next t
        ∧ scalarResult d (BitVec.ofNat 64 ((List.range 64).filter (fun i => (s.rs a).getLsbD i)).length) s t)

/-- R87: the immediate forms. -/
def Sys2Proof.Claims.scalarImmediateForms : Prop :=
  ∀ (s : State) (d a : BitVec 5) (k : BitVec 16) (n : BitVec 6),
    (∃ t, exec (.saddi d a k) s = .next t ∧ scalarResult d (s.rs a + k.signExtend 64) s t)
    ∧ (∃ t, exec (.sandi d a k) s = .next t ∧ scalarResult d (s.rs a &&& k.setWidth 64) s t)
    ∧ (∃ t, exec (.sori d a k) s = .next t ∧ scalarResult d (s.rs a ||| k.setWidth 64) s t)
    ∧ (∃ t, exec (.sxori d a k) s = .next t ∧ scalarResult d (s.rs a ^^^ k.setWidth 64) s t)
    ∧ (∃ t, exec (.sshli d a n) s = .next t ∧ scalarResult d (s.rs a <<< n.toNat) s t)
    ∧ (∃ t, exec (.sshri d a n) s = .next t ∧ scalarResult d (s.rs a >>> n.toNat) s t)
    ∧ (∃ t, exec (.ssrai d a n) s = .next t ∧ scalarResult d ((s.rs a).sshiftRight n.toNat) s t)
    ∧ (∃ t, exec (.sslti d a k) s = .next t ∧ scalarResult d (if (s.rs a).toInt < k.toInt then 1 else 0) s t)
    ∧ (∃ t, exec (.ssltiu d a k) s = .next t ∧ scalarResult d (if (s.rs a).toNat < (k.signExtend 64).toNat then 1 else 0) s t)
    ∧ (∃ t, exec (.slui d k) s = .next t ∧ scalarResult d (BitVec.ofInt 64 (k.toInt * 2 ^ 16)) s t)

/-- R86, R87: the register forms and the immediate forms of the scalar stream. -/
def Obligations.ScalarArithmetic : Prop := scalarRegisterForms ∧ scalarImmediateForms

/-- R156, R157: a scalar load, plain or atomic, of bytes that its checks let it read: `s[d]` takes them zero-extended, and
no byte of memory differs but those of the late stores that come first: its stream's to the same 8-byte units (R84) or to the same other
core (R237). -/
def Obligations.ScalarLoadReadsMemory : Prop :=
  ∀ (s : State) (d a : BitVec 5) (w : Width) (off : BitVec 14) (o : Ord) (sc : Scope) (l : Loc),
    let u := settled l w.bytes s
    let loaded (t : State) : Prop := scalarResult d (BitVec.ofNat 64 (numberAt l w.bytes u)) (u.forget u.whoMe) t
    (readable 0 (s.rs a + off.signExtend 64) w.bytes l s → ∃ t, exec (.sld d a w off) s = .next t ∧ loaded t)
    ∧ (readable 0 (s.rs a) w.bytes l s → ∃ t, exec (.samoLoad d a w o sc) s = .next t ∧ loaded t)

/-- R84, R156, R157: a scalar store, plain or atomic, where its checks let it write and no log entry is due: the stored bytes
read as the low bytes of the register, and every other byte of memory reads as before. A plain store that the model leaves to be performed
later (log entry 20: the model's choice), which goes to another core's scratch or not through the cluster aperture (R237), is kept with its
bytes, and no byte differs; when its turn comes, they are in memory. -/
def Obligations.ScalarStoreWritesMemory : Prop :=
  ∀ (s : State) (d a : BitVec 5) (w : Width) (off : BitVec 14) (o : Ord) (sc : Scope) (l : Loc) (page : Option (Nat × Nat × Nat)),
    let u := settled l w.bytes s
    let bs := toBytes w.bytes (s.rs d).toNat
    let own : Prop := (s.rs a + off.signExtend 64).toNat / 2 ^ 48 = 0xFFFD ∧ l.sp = .scratch s.cur.blk
    (writable 1 (s.rs a + off.signExtend 64) w.bytes l page s →
      (s.cur.later = 0 ∨ own → ∃ t, exec (.sst d a w off) s = .next t ∧ t.me.spc = s.me.spc + 1 ∧ (∀ r, t.rs r = s.rs r) ∧ storedAt l bs u t)
      ∧ (s.cur.later ≠ 0 → ¬ own → ∃ t, exec (.sst d a w off) s = .next t ∧ t.me.spc = s.me.spc + 1 ∧ (∀ r, t.rs r = s.rs r)
        ∧ t.me.late = u.me.late ++ [{ loc := l, data := bs }] ∧ ∀ k, t.peek k 1 = u.peek k 1))
    ∧ (writable 1 (s.rs a) w.bytes l page s → s.myBlock.mirror = none → s.cur.later = 0 →
      ∃ t, exec (.samoStore a d w o sc) s = .next t ∧ t.me.spc = s.me.spc + 1 ∧ (∀ r, t.rs r = s.rs r) ∧ storedAt l bs u t)
    ∧ (∀ b j r x, s.agenda = .perform b j 0 :: r → (s.beamAt b j).late = [x] → (∀ node, x.loc.sp ≠ .remote node) → (∀ n, x.loc.sp ≠ .cap n) →
      (∀ n, x.loc.sp = .rev n → (s.task n).rev.isSome = true) → ∃ t, step s = .next t ∧ (t.beamAt b j).late = [] ∧ storedAt x.loc x.data s t)

/-- R157: SAMO and SCAS: `s[d]` takes the number that stood in memory, memory takes what the operation makes of it; SCAS
stores only where the number equals the low bits of `s[d]`, and otherwise writes back what it read. -/
def Obligations.ScalarAtomicsReadModifyWrite : Prop :=
  ∀ (s : State) (d a b : BitVec 5) (op : Aop) (w : Width) (o : Ord) (sc : Scope) (l : Loc) (page : Option (Nat × Nat × Nat)),
    s.myBlock.mirror = none → s.cur.later = 0 → writable 2 (s.rs a) w.bytes l page s →
    let u := settled l w.bytes s
    let old := numberAt l w.bytes u
    let done (new : Nat) (t : State) : Prop := t.me.spc = s.me.spc + 1 ∧ t.rs d = (if d = 0 then 0 else BitVec.ofNat 64 old) ∧ (∀ r, r ≠ d → t.rs r = s.rs r)
      ∧ storedAt l (toBytes w.bytes new) u t
    (∃ t, exec (.samo d a b op w o sc) s = .next t ∧ done (aopApply op (nbits w) old (s.rs b).toNat) t)
    ∧ (∃ t, exec (.scas d a b w o sc) s = .next t ∧ done (if old = (s.rs d).toNat % 2 ^ nbits w then (s.rs b).toNat else old) t)

/-- R88: SB, SJAL and SJR to a word of `.scode`; a branch that is not taken goes on at the next word, and a target outside
the section traps ILLEGAL.TARGET with no register written. -/
def Sys2Proof.Claims.scalarControlTransfers : Prop :=
  ∀ (s : State) (c : Cond) (d a b : BitVec 5) (off : BitVec 13) (j : BitVec 21) (k : BitVec 16),
    let inCode (t : W64) : Prop := t.toNat < (s.codeOf s.cur.blk).scode.length
    (condHolds c (s.rs a) (s.rs b) = true → inCode (s.me.spc + off.signExtend 64) →
      ∃ t, exec (.sb c a b off) s = .next t ∧ scalarJump 0 0 (s.me.spc + off.signExtend 64) s t)
    ∧ (condHolds c (s.rs a) (s.rs b) = false → ∃ t, exec (.sb c a b off) s = .next t ∧ scalarJump 0 0 (s.me.spc + 1) s t)
    ∧ (inCode (s.me.spc + j.signExtend 64) →
      ∃ t, exec (.sjal d j) s = .next t ∧ scalarJump d (s.me.spc + 1) (s.me.spc + j.signExtend 64) s t)
    ∧ (inCode (s.rs a + k.signExtend 64) →
      ∃ t, exec (.sjr d a k) s = .next t ∧ scalarJump d (s.me.spc + 1) (s.rs a + k.signExtend 64) s t)
    ∧ (¬ inCode (s.rs a + k.signExtend 64) → s.myBlock.halt = none →
      ∃ t, exec (.sjr d a k) s = .next t ∧ (∀ r, t.rs r = s.rs r) ∧ t.me.spc = s.me.spc ∧ t.me.tcg.toNat % 16 = 3 ∧ t.me.tdr0.toNat % 2 ^ 16 = 6
        ∧ t.me.tdr1 = (s.rs a + k.signExtend 64).setWidth 32 ∧ t.me.tdr2 = ((s.rs a + k.signExtend 64) >>> 32).setWidth 32)

/-- R89: LRUN, LWAIT, UPUSH and SGETW outside a handler: each effect, and the park of LRUN on a full region queue, of UPUSH
on a full uniform queue and of LWAIT and SGETW on a region that runs. -/
def Obligations.LaneLinks : Prop :=
  ∀ (s : State) (d a : BitVec 5) (k : BitVec 16) (n : BitVec 4), s.me.inHandler = false →
    ((s.rs a + k.signExtend 64).toNat < (s.codeOf s.cur.blk).lcode.length →
      ∃ t, exec (.lrun a k) s = .next t
        ∧ (if s.me.regions.length < 4 then onlyBeam s.cur.blk s.cur.beam s t ∧ t.fab = s.fab
              ∧ t.me = { s.me with regions := s.me.regions ++ [{ start := s.rs a + k.signExtend 64, fmode := s.me.fmode }], spc := s.me.spc + 1, spark := .none }
            else parked .lrun s t))
    ∧ (∃ t, exec .lwait s = .next t ∧ (if s.me.regions = [] then scalarResult 0 0 s t else parked .region s t))
    ∧ (∃ t, exec (.upush a) s = .next t
        ∧ (if s.me.uq.length < 16 then onlyBeam s.cur.blk s.cur.beam s t ∧ t.fab = s.fab
              ∧ t.me = { s.me with uq := s.me.uq ++ [s.rs a], spc := s.me.spc + 1, spark := .none }
            else parked .upush s t))
    ∧ (∃ t, exec (.sgetw d n) s = .next t
        ∧ (if s.me.regions = [] then scalarResult d (if n.toNat < 8 then s.rw n.toNat else (s.rp (n.toNat - 8)).setWidth 64) s t
            else parked .region s t))
    ∧ (s.me.regions = [] → ∃ t, exec (.sgetw d 15) s = .next t ∧ scalarResult d 0xFFFFFFFF s t)

/-- R177, R178: RGIVE and RCLAIM with no region running, outside a handler: units given leave the allotment with their
registers, units claimed join it where the reserve holds them, and otherwise the claim waits; no register that is kept changes. -/
def Obligations.RegisterPool : Prop :=
  ∀ (s : State) (n : BitVec 11), s.me.inHandler = false → s.me.regions = [] → s.myBlock.halt = none → State.parkedClaims s.myBlock = [] →
    (n.toNat < s.me.units → ∃ t, exec (.rgive n) s = .next t ∧ beamAndIntake s t
      ∧ t.me = { s.me with units := s.me.units - n.toNat, v := t.me.v, spc := s.me.spc + 1, spark := .none }
      ∧ (∀ r i, i < 32 → r < 8 * (s.me.units - n.toNat) → t.me.v.get (32 * r + i) 0 = s.me.v.get (32 * r + i) 0)
      ∧ (∀ r i, i < 32 → 8 * (s.me.units - n.toNat) ≤ r → t.me.v.get (32 * r + i) 0 = 0))
    ∧ (s.me.units ≤ n.toNat → ∃ t, exec (.rgive n) s = .next t ∧ t.me.units = s.me.units ∧ t.me.spc = s.me.spc
      ∧ t.me.tcg.toNat % 16 = 4 ∧ t.me.tdr0.toNat % 2 ^ 16 = 2)
    ∧ (s.me.units + n.toNat ≤ 40 → n.toNat ≤ s.myBlock.reserve → ∃ t, exec (.rclaim n) s = .next t ∧ beamAndIntake s t
      ∧ t.me = { s.me with units := s.me.units + n.toNat, spc := s.me.spc + 1, spark := .none })
    ∧ (s.me.units + n.toNat ≤ 40 → s.myBlock.reserve < n.toNat → ∃ t, exec (.rclaim n) s = .next t ∧ beamAndIntake s t
      ∧ t.me = { s.me with spark := .claim s.clk.toNat n.toNat })
    ∧ (40 < s.me.units + n.toNat → ∃ t, exec (.rclaim n) s = .next t ∧ t.me.units = s.me.units ∧ t.me.spc = s.me.spc
      ∧ t.me.tcg.toNat % 16 = 4 ∧ t.me.tdr0.toNat % 2 ^ 16 = 2)

/-- R90: SYSR reads a register, and SYSW writes it, once the regions that its interlock waits for have ended: a write of a
read-only register has no effect, `sor` is cleared by ones, and `tpc` and `tlpc` are written by a handler only. -/
def Obligations.SystemRegisters : Prop :=
  ∀ (s : State) (d a : BitVec 5) (r : SysReg),
    ((SysReg.interlocked false r = true → regionsPast s) → ∃ t, exec (.sysr d r) s = .next t ∧ scalarResult d (s.readSys r) s t)
    ∧ ((SysReg.interlocked true r = true → regionsPast s) → ∃ t, exec (.sysw r a) s = .next t
      ∧ onlyBeam s.cur.blk s.cur.beam s t ∧ t.fab = s.fab
      ∧ t.me = { (match r with
          | .fmode => { s.me with fmode := (s.rs a).setWidth 32 &&& 0xF }
          | .seed => { s.me with seed := s.rs a }
          | .ctr => { s.me with ctr := s.rs a }
          | .sor => { s.me with sor := s.me.sor &&& ~~~((s.rs a).setWidth 32) }
          | .trapvec => { s.me with trapvec := s.rs a }
          | .tpc => if s.me.inHandler then { s.me with tpc := s.rs a } else s.me
          | .tlpc => if s.me.inHandler then { s.me with tlpc := s.rs a } else s.me
          | _ => s.me) with spc := s.me.spc + 1, spark := .none })
    ∧ (SysReg.interlocked true r = true → ¬ regionsPast s → ∃ t, exec (.sysw r a) s = .next t ∧ parked .region s t)
    ∧ s.readSys .reftime = s.reftime ∧ s.readSys .sor = s.me.sor.setWidth 64 ∧ s.readSys .trapvec = s.me.trapvec
    ∧ s.readSys .tpc = s.me.tpc ∧ s.readSys .fragn = BitVec.ofNat 64 s.me.frags.length
    ∧ s.readSys .beamcfg = BitVec.ofNat 64 (s.me.role + 256 * s.me.units)

/-- R246: `mirst` has number 0x04A, is not interlocked, and reads 1 in bit 0 in a mirrored block with its mismatches in bits
[15:8], saturating at 255, and 0 in another; a write of it has no effect on it. -/
def Obligations.MirstReads : Prop :=
  SysReg.ofNum 0x04A = some .mirst ∧ SysReg.interlocked false .mirst = false ∧ SysReg.interlocked true .mirst = false
  ∧ (∀ (s : State), s.myBlock.mirror = none → s.readSys .mirst = 0)
  ∧ (∀ (s : State) (m : Mirror), s.myBlock.mirror = some m →
      (s.readSys .mirst).getLsbD 0 = true ∧ (s.readSys .mirst).toNat / 2 % 128 = 0
      ∧ (s.readSys .mirst).toNat / 256 % 256 = min m.mism 255 ∧ (s.readSys .mirst).toNat / 2 ^ 16 = 0)
  ∧ (∀ (s : State) (a : BitVec 5), ∃ t, exec (.sysw .mirst a) s = .next t ∧ t.readSys .mirst = s.readSys .mirst)

namespace Sys2Proof.Claims

/-- The lanes of live(act). -/
abbrev active (i : Nat) (s : State) : Prop := i < 32 ∧ s.cur.act.getLsbD i = true

/-- A trap of cause `c` in the issuing beam, in lane unit `u` or its scalar stream: the cause registers hold it, the block's halt is
signalled, nothing else of the beam differs, and no byte of memory. -/
def tookTrap (c : Cause) (u : Option Nat) (s t : State) : Prop :=
  t.me = { s.me with skid := 0, tcg := BitVec.ofNat 32 (c.grp + 256 * s.cur.beam), tdr0 := BitVec.ofNat 32 (c.code + 65536 * c.d0), tdr1 := c.d1, tdr2 := c.d2 }
    ∧ t.myBlock.halt = some { beam := s.cur.beam, cause := some c, unit := u, since := s.now } ∧ ∀ l, t.peek l 1 = s.peek l 1

/-- R158: check `step` is the first that some active lane fails, `i` the lowest lane that fails it, with MEM code `code`, and `mask` the
lanes that do. -/
def firstFailure (step i code : Nat) (mask : W32) (addr : Nat → W64) (n : Nat) (write : Bool) (s : State) : Prop :=
  let check (k j : Nat) : Option Nat := s.checkFault k s.cur.blk s.cur.beam j (addr j) n write false
  2 ≤ step ∧ step ≤ 6 ∧ i < 32 ∧ s.cur.act.getLsbD i = true ∧ check step i = some code
    ∧ (∀ j, j < i → s.cur.act.getLsbD j = true → check step j = none)
    ∧ (∀ k j, 2 ≤ k → k < step → j < 32 → s.cur.act.getLsbD j = true → check k j = none)
    ∧ ∀ j, j < 32 → mask.getLsbD j = (s.cur.act.getLsbD j && (check step j).isSome)

/-- R158, R218: a memory word that is at its first issue, in a block that neither halts nor is mirrored, traps in the first check that
some lane fails, with the lanes that fail it, the lowest of them and its address; nothing is stored. -/
def laneMemoryTraps : Prop :=
  ∀ (s : State) (x : LaneOp) (step i code : Nat) (mask : W32), s.myBlock.halt = none → s.myBlock.mirror = none →
    (∀ y, s.me.unit s.cur.unit = some y → y.held = none) →
    let traps (kind : Nat) (a : W64) (t : State) : Prop :=
      tookTrap { grp := 1, code := code, d0 := i + 64 * kind, d1 := mask, d2 := a.setWidth 32 } (some s.cur.unit) s t
    let two := s.laneAddr x .a (some .b)
    let one := s.laneAddr x .a none
    (firstFailure step i code mask two (2 ^ x.mb 0 2) false s → ∃ t, exec (.ld x) s = .next t ∧ traps 0 (two i) t)
    ∧ (firstFailure step i code mask two (2 ^ x.mb 0 2) true s → ∃ t, exec (.st x) s = .next t ∧ traps 1 (two i) t)
    ∧ (firstFailure step i code mask one (2 ^ x.mb 4 2) true s →
      (∃ t, exec (.atom x) s = .next t ∧ traps 2 (one i) t) ∧ ∃ t, exec (.acas x) s = .next t ∧ traps 2 (one i) t)

/-- R158, R218: the same of the scalar stream's loads and stores, whose one access is reported as lane 0, where it has not been sent; no
register is written, and the stream waits for no answer. -/
def scalarMemoryTraps : Prop :=
  ∀ (s : State) (d a : BitVec 5) (w : Width) (off : BitVec 14) (step code : Nat), s.myBlock.halt = none → 2 ≤ step → step ≤ 6 →
    let va := s.rs a + off.signExtend 64
    unasked va s →
    let first (write : Bool) : Prop := s.checkFault step s.cur.blk s.cur.beam 0 va w.bytes write true = some code
      ∧ ∀ k, 2 ≤ k → k < step → s.checkFault k s.cur.blk s.cur.beam 0 va w.bytes write true = none
    let traps (kind : Nat) (t : State) : Prop :=
      tookTrap { grp := 1, code := code, d0 := 32 + 64 * kind, d1 := 1, d2 := va.setWidth 32 } none (s.setMe (fun x => { x with spark := x.spark.unsent })) t
    (first false → ∃ t, exec (.sld d a w off) s = .next t ∧ traps 0 t)
    ∧ (first true → ∃ t, exec (.sst d a w off) s = .next t ∧ traps 1 t)

/-- R15 to R18, R158: what the checks of form, alignment and bounds answer. -/
def memoryChecks : Prop :=
  ∀ (s : State) (b j lane : Nat) (a : W64) (n : Nat) (write scalar : Bool),
    let h := a.toNat / 2 ^ 48
    let check (k : Nat) : Option Nat := s.checkFault k b j lane a n write scalar
    (scalar = true → h = 0xFFFC → check 2 = some 1)
    ∧ (h = 0xFFFE → check 2 = (if a.toNat % 2 ^ 48 < 2 ^ 20 then none else some 1) ∧ check 4 = (if a.toNat % 2 ^ 20 + n ≤ 16384 * (s.block b).scrg then none else some 4))
    ∧ (h = 0xFFFD → check 2 = (if a.toNat % 2 ^ 48 < 2 ^ 22 then none else some 1) ∧ (s.groupBlock b (a.toNat / 2 ^ 20 % 4) = none → check 4 = some 5))
    ∧ (scalar = false → h = 0xFFFC → check 2 = (if a.toNat % 2 ^ 48 < 2 ^ 32 then none else some 1))
    ∧ (h = 0xFFFC → check 4 = (if a.toNat % 2 ^ 32 + n ≤ (s.block b).prsize then none else some 6))
    ∧ (h < 0xFFFC ∨ h = 0xFFFF → check 2 = (if a.toNat / 2 ^ 56 = 0 ∨ a.toNat / 2 ^ 56 = 255 then none else some 2) ∧ check 4 = none)
    ∧ check 3 = (if n ∣ a.toNat then none else some 3)

/-- R97: a lane word whose field `f` names, in some active lane, a register at or beyond the allotment, while no earlier field does,
traps REG.BOUNDS before it has an effect, with the field, the lanes, and the register number of the lowest of them. That of several such
fields the first is named is the model's choice (log entry 77, DESIGN CHOICE); the late stores that the word may not precede are performed first
(R84; log entry 20). The word is not one that a mirrored block masks (R12). -/
def registerBounds : Prop :=
  ∀ (s : State) (b j u : Nat) (r : List Turn) (y : LUnit) (w : BitVec 96) (lw : LaneWord) (op : Instr) (q : Tab W64) (f i n : Nat) (mask : W32),
    s.agenda = .lane b j u :: r → s.mayLane b j u = true → (s.block b).halt = none → (s.beamAt b j).unit u = some y → y.held = none →
    (s.codeOf b).lcode[y.pc.toNat]? = some w → lw.body = .one op → State.isPref op = false →
    State.handOut (State.slotsOf lw.body) (s.beamAt b j).uq = [(0, q, op)] →
    let p := if lw.pred.toNat = 7 then BitVec.allOnes 32 else (s.beamAt b j).p.get lw.pred.toNat 0
    let fm := match (s.beamAt b j).regions with | g :: _ => g.fmode | [] => (s.beamAt b j).fmode
    let begun : State := { s with agenda := r, cur := { blk := b, beam := j, unit := u, slot := 0, fmode := fm } }
    let after := begun.orderLate true b j op
    let v : State := after.setCur (fun c => { c with act := y.mask &&& (if lw.neg then ~~~p else p) &&& ~~~(s.beamAt b j).dead, uq := q })
    let exceeds (k g : Nat) : Prop := ∃ m, (g, m) ∈ indirectFields v op k ∧ 8 * (s.beamAt b j).units ≤ m
    begun.laneErr w.toNat = .ok lw → State.accessMasked v 0 q op = none → active i v → (f, n) ∈ indirectFields v op i → 8 * (s.beamAt b j).units ≤ n →
    (∀ k, active k v → k < i → ¬ exceeds k f) → (∀ k g, active k v → g < f → ¬ exceeds k g) →
    (∀ k, k < 32 → (mask.getLsbD k = true ↔ active k v ∧ exceeds k f)) →
    ∃ t, step s = .next t
      ∧ t.beamAt b j = { after.beamAt b j with skid := 0, tcg := BitVec.ofNat 32 (4 + 256 * j), tdr0 := BitVec.ofNat 32 (1 + 65536 * f), tdr1 := mask, tdr2 := BitVec.ofNat 32 n }
      ∧ ((t.block b).halt.bind Halt.unit) = some u ∧ ∀ l, t.peek l 1 = after.peek l 1

/-- R219, R220: what a handler may not issue traps ILLEGAL.HANDLER in it: `tcg[6]` is set beside `tcg[7]`, the detail names the opcode,
the beam's position is saved, and the block is to be ended; the instruction has no effect. That the detail names the opcode (log entry 29),
and that `tlpc` is 0 where the lit slot is empty (log entry 69, DESIGN CHOICE), is the model's choice. -/
def handlerForbids : Prop :=
  ∀ (s : State) (h : Halt) (d a b : BitVec 5) (k : BitVec 16) (n : BitVec 4) (g : BitVec 11) (ph : Bool),
    s.me.inHandler = true → s.myBlock.halt = some h → h.stage = .handler → h.beam = s.cur.beam →
    s.myBlock.mirror = none → (s.tenant (s.tenantOf s.cur.blk)).fmask = 0 →
    let forbidden (op : Nat) (i : Instr) : Prop := ∃ t, exec i s = .next t
      ∧ t.me = { s.me with tcg := BitVec.ofNat 32 (3 + 256 * s.cur.beam) ||| 0xC0, tdr0 := BitVec.ofNat 32 (9 + 65536 * 3), tdr1 := BitVec.ofNat 32 op, tdr2 := 0, tpc := s.me.spc, tlpc := (s.me.lit.map LUnit.pc).getD 0 }
      ∧ t.myBlock.halt.map Halt.stage = some .ending ∧ ∀ l, t.peek l 1 = s.peek l 1
    forbidden 0x20 (.lrun a k) ∧ forbidden 0x21 .lwait ∧ forbidden 0x22 (.upush a)
      ∧ forbidden 0x24 (.rgive g) ∧ forbidden 0x25 (.rclaim g) ∧ forbidden 0x26 (.seal d a b) ∧ forbidden 0x27 .mcommit
      ∧ forbidden 0x30 (.tenq a b) ∧ forbidden 0x31 (.tfork d a) ∧ forbidden 0x32 (.tjoin a b) ∧ forbidden 0x33 .trigger
      ∧ forbidden 0x35 .tyield ∧ forbidden 0x38 (.bar n) ∧ forbidden 0x3C (.bowait a ph) ∧ forbidden 0x3E (.watch a) ∧ forbidden 0x3F (.waitw d a ph)

/-- R94, R216, R218: TRAP k in a block that does not halt: the cause, its code and its beam are saved, the stream's position
is that of the next word, the halt is signalled, and the cause registers of every other beam of the block name the beam. -/
def trapInstruction : Prop :=
  ∀ (s : State) (k : BitVec 11), s.myBlock.halt = none →
    ∃ t, exec (.trap k) s = .next t
      ∧ t.me = { s.me with spc := s.me.spc + 1, spark := .none, skid := 0, tcg := BitVec.ofNat 32 (10 + 256 * s.cur.beam), tdr0 := k.setWidth 32, tdr1 := 0, tdr2 := 0 }
      ∧ t.myBlock.halt = some { beam := s.cur.beam, cause := some { grp := 10, code := k.toNat }, since := s.now }
      ∧ (∀ i x, i ≠ s.cur.beam → s.myBlock.beams.find i = some x →
          t.myBlock.beams.find i = some { x with skid := 0, tcg := BitVec.ofNat 32 (256 * s.cur.beam), tdr0 := 0, tdr1 := 0, tdr2 := 0 })
      ∧ (∀ c, c ≠ s.cur.blk → t.block c = s.block c) ∧ onlyIntake s t ∧ ∀ l, t.peek l 1 = s.peek l 1

end Sys2Proof.Claims

/-- R94, R97, R158, R216, R218 to R220: traps save their cause: TRAP k, the MEM traps of both streams, REG.BOUNDS, and what a handler
may not issue. -/
def Obligations.TrapSavesItsCause : Prop :=
  trapInstruction ∧ laneMemoryTraps ∧ scalarMemoryTraps ∧ memoryChecks ∧ registerBounds ∧ handlerForbids

/-- R216, R217: the handler of a block that is not mirrored, and that no SHUTTER stops, starts: the positions of both streams of the trapping beam are
saved, it runs at `trapvec` with bit 63 clear, `tcg[7]` is set, and every other beam's scalar position is saved. That `tlpc` is 0 of a beam
whose lit slot is empty is the model's choice (log entry 69, DESIGN CHOICE). -/
def Sys2Proof.Claims.handlerStartEntersTheHandler : Prop :=
  ∀ (s : State) (b : Nat) (h : Halt), s.onCore b = true → (s.block b).mirror = none → (s.block b).halt = some h →
    h.quiet = false → s.stopped b = true → s.handled b = true → s.accessesDone b = true →
    ∃ t, exec (.handlerStart b) s = .next t
      ∧ (t.block b).halt = some { h with stage := .handler, spc := (s.beamAt b h.beam).spc, spark := (s.beamAt b h.beam).spark }
      ∧ (t.beamAt b h.beam).tpc = (s.beamAt b h.beam).spc
      ∧ (t.beamAt b h.beam).tlpc = (match h.unit with
          | some u => ((s.beamAt b h.beam).unit u).map LUnit.pc
          | none => (s.beamAt b h.beam).lit.map LUnit.pc).getD 0
      ∧ (t.beamAt b h.beam).spc = (s.beamAt b h.beam).trapvec &&& 0x7FFFFFFFFFFFFFFF
      ∧ (t.beamAt b h.beam).tcg = (s.beamAt b h.beam).tcg ||| 0x80
      ∧ (t.beamAt b h.beam).s = (s.beamAt b h.beam).s ∧ (t.beamAt b h.beam).v = (s.beamAt b h.beam).v
      ∧ (∀ i x, i ≠ h.beam → (s.block b).beams.find i = some x →
          t.beamAt b i = { x with tpc := x.spc, tlpc := (x.lit.map LUnit.pc).getD 0 })
      ∧ ∀ l, t.peek l 1 = s.peek l 1

/-- R220: ERET in a handler with no cause held back, no ladder on the block and no SHUTTER stopping it: the stream goes to `tpc`, the
unit that trapped (the lit slot for a scalar trap) to `tlpc` with its lanes, `tcg[7]` is clear, and the block runs, every parked
instruction to be evaluated again; outside a handler it traps ILLEGAL.UNDEF. Where the unit that trapped resumes is the model's choice (log
entry 52). -/
def Sys2Proof.Claims.eretReturns : Prop :=
  ∀ (s : State) (h : Halt),
    (s.me.inHandler = true → s.myBlock.halt = some h → h.beam = s.cur.beam → h.quiet = false → s.myBlock.causes = [] → s.ladderOf s.cur.blk = none →
      ∃ t, exec .eret s = .next t ∧ t.myBlock.halt = none ∧ t.me.spc = s.me.tpc ∧ t.me.tcg = s.me.tcg &&& ~~~0x80
        ∧ t.me.s = s.me.s ∧ t.me.v = s.me.v ∧ t.me.w = s.me.w ∧ t.me.p = s.me.p ∧ t.me.trapvec = s.me.trapvec
        ∧ (∀ y, s.me.unit (h.unit.getD 0) = some y → ∃ z, t.me.unit (h.unit.getD 0) = some z ∧ z.pc = s.me.tlpc ∧ z.mask = y.mask ∧ z.token = y.token)
        ∧ (∀ i x, i ≠ s.cur.beam → s.myBlock.beams.find i = some x → t.beamAt s.cur.blk i = x.reeval)
        ∧ ∀ l, t.peek l 1 = s.peek l 1)
    ∧ (s.me.inHandler = false → s.myBlock.halt = none →
      ∃ t, exec .eret s = .next t ∧ t.me.spc = s.me.spc ∧ t.me.tcg.toNat % 16 = 3 ∧ t.me.tdr0.toNat % 2 ^ 16 = 1)

/-- R215 to R220: a stopped block enters its handler, and ERET returns from it. -/
def Obligations.HandlerEntryAndReturn : Prop := handlerStartEntersTheHandler ∧ eretReturns

/-- R155, R28: an SFENCE of a block that is not mirrored changes nothing but the position of its stream: its fetch has performed the
stores that it orders (log entry 20: the model's choice). -/
def Sys2Proof.Claims.scalarFenceAdvances : Prop :=
  ∀ (s : State) (k : FenceKind) (sc : Scope), s.myBlock.mirror = none → ∃ t, exec (.sfence k sc) s = .next t ∧ scalarResult 0 0 s t

/-- R88 to R90, R155: branches, jumps and the fence of the scalar stream. -/
def Obligations.ScalarControlAndFence : Prop := scalarControlTransfers ∧ scalarFenceAdvances

/-- R240: what the MIRROR flag masks traps ILLEGAL.MASKED: the atomics of both streams and atomic stores outside the block's
own scratch (of the lane stream ATOM, ACAS and an annotated ST, where one active lane's address lies outside, before any other check of
its lanes: R12), FENCE and SFENCE of kind rel, ar or sc at cluster scope or wider, and TENQ, TFORK, TJOIN and TRIGGER. -/
def Obligations.MirrorMasks : Prop :=
  let masked (t : State) : Prop := t.me.tcg.toNat % 16 = 3 ∧ t.me.tdr0.toNat % 2 ^ 16 = 2
  ∀ (s : State) (d a b : BitVec 5) (op : Aop) (w : Width) (o : Ord) (sc : Scope) (k : FenceKind),
    s.myBlock.mirror.isSome = true → s.myBlock.halt = none →
    (s.ownScratch s.cur.blk (s.rs a) = false →
      (∃ t, exec (.samo d a b op w o sc) s = .next t ∧ masked t) ∧ (∃ t, exec (.scas d a b w o sc) s = .next t ∧ masked t)
      ∧ (∃ t, exec (.samoStore a b w o sc) s = .next t ∧ masked t))
    ∧ (k ≠ .acq → 3 ≤ sc.code → ∃ t, exec (.sfence k sc) s = .next t ∧ masked t)
    ∧ (k = .acq → ∃ t, exec (.sfence k sc) s = .next t ∧ scalarResult 0 0 s t)
    ∧ (∃ t, exec (.tenq a b) s = .next t ∧ masked t) ∧ (∃ t, exec .trigger s = .next t ∧ masked t)
    ∧ ((s.tenant (s.tenantOf s.cur.blk)).fmask = 0 →
      (∃ t, exec (.tfork d a) s = .next t ∧ masked t) ∧ (∃ t, exec (.tjoin a b) s = .next t ∧ masked t))
    ∧ ((s.me.unit s.cur.unit).bind LUnit.held = none → ∀ (x : LaneOp) (i : Nat), i < 32 → s.cur.act.getLsbD i = true →
      (s.ownScratch s.cur.blk (s.laneAddr x .a none i) = false →
        (∃ t, exec (.atom x) s = .next t ∧ masked t) ∧ (∃ t, exec (.acas x) s = .next t ∧ masked t))
      ∧ (s.ownScratch s.cur.blk (s.laneAddr x .a (some .b) i) = false → x.long = true → x.c ≠ 0 → ∃ t, exec (.st x) s = .next t ∧ masked t))
    ∧ (∀ x : LaneOp, s.laneMasked s.cur.blk (.fence x) = (x.mb 0 2 != 0 && decide (3 ≤ x.mb 2 3)))

/-- R251, R254, R253, R255: a TENQ whose record has been read, and whose queue and slot are there, enqueues a task with the record's fields,
ready where its credits reach its predecessors, and goes on. `v` is the machine with the record read (R251: once, at issue). One whose object
or version has gone by its release traps ILLEGAL.LAUNCH, as at its issue (R336, R340). -/
def Obligations.TenqEnqueues : Prop :=
  ∀ (s v : State) (a b : BitVec 5) (r : TaskRead) (q slot : Nat),
    s.myBlock.mirror = none → s.me.inHandler = false → regionsPast s →
    s.launchOnce (s.rs a) false = .done r v → v.queueOf (v.rs b) = some q →
    v.freeSlot q (min ((v.taskOf v.cur.blk).depth + 1) 255) = some slot → v.tableFree (State.dieOf (v.coreOf v.cur.blk)) = true →
    let taken := (v.takeCredits (v.taskOf v.cur.blk).tenant (v.rs a) r.lr.npred).1
    (v.unbound v.myBlock.task r.lr = true → v.myBlock.halt = none →
      ∃ t, exec (.tenq a b) s = .next t ∧ t.me.spc = v.me.spc ∧ t.me.read = none ∧ (∀ i, t.rs i = v.rs i) ∧ t.tasks = v.tasks
        ∧ t.me.tcg.toNat % 16 = 3 ∧ t.me.tdr0.toNat % 2 ^ 16 = 7 ∧ t.me.tdr1 = 32 ∧ ∀ l, t.peek l 1 = v.peek l 1)
    ∧ (v.unbound v.myBlock.task r.lr = false →
    ∃ t, exec (.tenq a b) s = .next t ∧ t.me.spc = v.me.spc + 1 ∧ t.me.read = none ∧ (∀ i, t.rs i = v.rs i)
      ∧ (let k := t.task v.ids
         k.lr = r.lr ∧ k.succ = r.succ ∧ k.addr = v.rs a ∧ k.queue = q ∧ k.slot = slot ∧ k.depth = min ((v.taskOf v.cur.blk).depth + 1) 255
         ∧ k.tenant = (v.taskOf v.cur.blk).tenant ∧ k.ended = false ∧ k.count = r.lr.npred - taken ∧ k.ready.isSome = decide (r.lr.npred = taken))
      ∧ ∀ l, l.sp ≠ .rev v.ids → t.peek l 1 = v.peek l 1)

/-- R251, R261, R297: a TFORK whose record has been read (`v`), whose covered lines translate, and whose lines, quota, table entry and pages are
there, takes the cut (`u`), draws the pages (`z`) and creates a child with its revision, and `s[d]` takes the child's handle. Its object and
version are there at the release (R340). -/
def Obligations.TforkCreatesAChild : Prop :=
  ∀ (s v u z : State) (d a : BitVec 5) (r : TaskRead) (anc : Memory) (pages : List Nat),
    let tn := v.tenantOf v.cur.blk
    let lines := coveredLines r.ents
    let need := 2 * lines.length
    let die (s : State) : Nat := State.dieOf (s.coreOf s.cur.blk)
    let draw (s : State) : Option (List Nat × State) := s.allocFor (2 ^ 40 + 64 * v.cur.blk + v.cur.beam) (die v) ((64 * need + 65535) / 65536)
    (s.tenant (s.tenantOf s.cur.blk)).fmask = 0 → s.myBlock.mirror = none → s.me.inHandler = false → regionsPast s →
    s.launchOnce (s.rs a) true = .done r v → v.me.spark = .none → State.forkChecks lines v = .done () v →
    need ≤ v.revFree tn → v.forkWaits tn = [] → v.tableFree (die v) = true → (draw v).isSome = true →
    State.forkLines lines {} v = .done anc u → u.unbound u.myBlock.task r.lr = false → draw u = some (pages, z) →
    ∃ t, exec (.tfork d a) s = .next t ∧ t.me.spc = z.me.spc + 1 ∧ t.me.read = none ∧ t.rs d = (if d = 0 then 0 else BitVec.ofNat 64 z.ids)
      ∧ (let k := t.task z.ids
         k.forked = true ∧ k.parent = z.myBlock.task ∧ k.lr = r.lr ∧ k.addr = v.rs a ∧ k.ready.isSome = true
         ∧ k.rev = some { ents := r.ents, anc := anc, mine := anc, need := need, pages := pages })
      ∧ (t.task z.myBlock.task).kids.contains z.ids = true

namespace Sys2Proof.Claims

/-- R259, R263: what an element takes where the child wrote it and its parent changed it too, by the merge type, from the ancestor's
element `a`, the parent's `p` and the child's `c`: the floating-point sum is rounded twice. -/
def mergeValue (et mg a p c : Nat) : Nat :=
  let w := 8 * elemBytes et
  let f := elemFmt et
  let below (x y : Nat) : Bool := if et % 2 = 1 then (BitVec.ofNat w x).slt (BitVec.ofNat w y) else decide (x < y)
  if mg = 0 then p
  else if mg = 1 then c
  else if mg = 2 then (BitVec.ofNat w p + BitVec.ofNat w c - BitVec.ofNat w a).toNat
  else if mg = 3 then FVal.encode f .rne false (FVal.add .rne (FVal.decode f p) (FVal.decode f (FVal.encode f .rne false (FVal.add .rne (FVal.decode f c) (FVal.decode f a).negate))))
  else if mg = 4 then (if 8 ≤ et then fminmaxOf f false p c else if below c p then c else p)
  else if mg = 5 then (if 8 ≤ et then fminmaxOf f true p c else if below p c then c else p)
  else a ^^^ ((p ^^^ a) ||| (c ^^^ a))

/-- R263: the merged line `m` of the ancestor's line `a`, the parent's `p` and the child's `c` under a table entry: element by element,
the parent's where the child left the ancestor's, the child's where the parent did, else what the merge type makes of the three; and
the number of elements that both changed. -/
def mergesElements (e : RevEnt) (a p c : List Byte) (m : List Byte × Nat) : Prop :=
  let w := elemBytes e.etype
  m.1.length = 64
    ∧ (∀ k, k < 64 / w →
        let x := numAt a (w * k) w
        let y := numAt p (w * k) w
        let z := numAt c (w * k) w
        (m.1.drop (w * k)).take w = toBytes w (if z = x then y else if y = x then z else mergeValue e.etype e.merge x y z))
    ∧ m.2 = ((List.range (64 / w)).filter (fun k => numAt c (w * k) w != numAt a (w * k) w && numAt p (w * k) w != numAt a (w * k) w)).length

/-- The join of child `kid` into task `par` merges one line, `va` under entry `e`: the parent's view of it is `l` in this package, no
log entry is due, no word of the three lines is poisoned, and no page of the child's reservation is to be retired. -/
def oneLine (s : State) (kid par : Nat) (r : Rev) (e : RevEnt) (va : Nat) (l : Loc) (page : Option (Nat × Nat × Nat)) : Prop :=
  kid ≠ par ∧ (s.task kid).rev = some r ∧ (∃ i, coveredLines r.ents = [(i, va)] ∧ r.ents[i]? = some e) ∧ r.merged = 0
    ∧ s.mergeAt kid par va = .ok l page ∧ (∀ n, l.sp ≠ .remote n)
    ∧ (∀ t base z, page = some (t, base, z) → (s.tenant t).dlbase = 0 ∨ (s.tenant t).dirty.contains base = true)
    ∧ r.anc.badWords va = [] ∧ r.mine.badWords va = [] ∧ (s.memOf l.sp).badWords l.addr = [] ∧ r.pages.all (fun q => !s.pageBad q) = true

/-- What the join of one line leaves: the parent's view of the line is the merged line, and every other byte stands. -/
def joinsOneLine (s : State) (kid : Nat) (r : Rev) (e : RevEnt) (va : Nat) (l : Loc) (t : State) : Prop :=
  t.peek l 64 = (mergeLine e (r.anc.bytes va 64) (s.peek l 64) (r.mine.bytes va 64)).1 ∧ (t.task kid).joined = true
    ∧ ∀ k : Loc, k.sp ≠ .rev kid → (k.sp ≠ l.sp ∨ k.addr < l.addr ∨ l.addr + 64 ≤ k.addr) → t.peek k 1 = s.peek k 1

end Sys2Proof.Claims

/-- R262, R263: TJOIN of an ended child that is not joined: the merge is done, the counts go where they are asked for, and the
child is joined; a handle that names no unjoined child, or one that is joined already, gives counts of all ones and goes on. A merged
line holds, element by element, what R263 gives of the ancestor's, the parent's and the child's element; of a child that wrote one
line, that line is merged in the parent's view, with its count of elements that both changed, and no other byte differs. -/
def Obligations.TjoinMergesAnEndedChild : Prop :=
  (∀ (e : RevEnt) (a p c : List Byte), e.etype ≤ 10 → a.length = 64 → p.length = 64 → c.length = 64 → mergesElements e a p c (mergeLine e a p c))
  ∧
  ∀ (s u : State) (a b : BitVec 5) (counts : List Nat),
    (s.tenant (s.tenantOf s.cur.blk)).fmask = 0 → s.myBlock.mirror = none → s.me.inHandler = false → regionsPast s → s.me.spark = .none →
    let h := (s.rs a).toNat
    let p := s.myBlock.task
    let begun := s.setTask h (fun k => { k with rev := k.rev.map (fun r => { r with joiner := some (s.cur.blk, s.cur.beam) }) })
    (s.rs b = 0 → (s.task p).kids.contains h = true → (s.task h).joined = false → (s.task h).ended = true → s.joinBusy h = false → begun.joinKid h p = (some counts, u) →
      ∃ t, exec (.tjoin a b) s = .next t ∧ t.me.spc = u.me.spc + 1 ∧ (t.task h).joined = true)
    ∧ (∀ r e va l page, s.rs b = 0 → (s.task p).kids.contains h = true → (s.task h).joined = false → (s.task h).ended = true → s.joinBusy h = false →
      oneLine s h p r e va l page → r.counts = List.replicate 8 0 → (coveredLines r.ents)[0]? = some (0, va) →
      (∃ v, begun.joinKid h p = (some ((List.replicate 8 0).set 0 (min (mergeLine e (r.anc.bytes va 64) (s.peek l 64) (r.mine.bytes va 64)).2 0xFFFFFFFE)), v))
      ∧ ∃ t, exec (.tjoin a b) s = .next t ∧ t.me.spc = s.me.spc + 1 ∧ (∀ x, t.rs x = s.rs x) ∧ joinsOneLine s h r e va l t)
    ∧ (s.rs b = 0 → (s.task p).kids.contains h = true → (s.task h).joined = true → ∃ t, exec (.tjoin a b) s = .next t ∧ scalarResult 0 0 (s.forget s.whoMe) t)
    ∧ (s.rs b = 0 → (s.task p).kids.contains h = true → (s.task h).joined = false → (s.task h).ended = false →
      ∃ t, exec (.tjoin a b) s = .next t ∧ parked .join s t)
    ∧ (s.rs b = 0 → (s.task p).kids.contains h = false → ∃ t, exec (.tjoin a b) s = .next t ∧ scalarResult 0 0 (s.forget s.whoMe) t)
    ∧ (s.rs b ≠ 0 → (s.task p).kids.contains h = false ∨ (s.task h).joined = true →
      s.accessCause s.cur.blk s.cur.beam ((List.range 8).map (fun e => (0, s.rs b + BitVec.ofNat 64 (4 * e)))) 4 1 true = none →
      State.storeCounts (s.rs b) (List.replicate 8 (BitVec.allOnes 32)) s = .done () u →
      ∃ t, exec (.tjoin a b) s = .next t ∧ scalarResult 0 0 (u.forget u.whoMe) t)

/-- R257: TRIGGER triggers its block once; TEXIT ends its beam, whose late stores are still to be performed (R84), and in a handler leaves the block to be terminated; TYIELD
goes on where no stop is asked for, and waits at the boundary otherwise. -/
def Obligations.TriggerExitYield : Prop :=
  ∀ (s : State),
    (s.myBlock.mirror = none → s.me.inHandler = false → regionsPast s → s.myBlock.trig = false →
      ∃ t, exec .trigger s = .next t ∧ t.myBlock.trig = true ∧ t.me = { s.me with spc := s.me.spc + 1, spark := .none })
    ∧ (s.myBlock.mirror = none → s.me.inHandler = false → regionsPast s → s.myBlock.trig = true →
      ∃ t, exec .trigger s = .next t ∧ scalarResult 0 0 s t)
    ∧ (s.me.inHandler = false → s.me.regions = [] →
      ∃ t, exec .texit s = .next t ∧ t.me.exited = true ∧ t.me.watch = [] ∧ t.me.uq = [] ∧ t.me.lit = none ∧ t.me.late = s.me.late
        ∧ ∀ l, t.peek l 1 = s.peek l 1)
    ∧ (∀ h, s.me.inHandler = true → s.myBlock.halt = some h →
      ∃ t, exec .texit s = .next t ∧ t.myBlock.halt = some { h with stage := .ending, since := s.now } ∧ t.me = s.me)
    ∧ (s.me.inHandler = false → s.me.preq.getLsbD 0 = false → ∃ t, exec .tyield s = .next t ∧ scalarResult 0 0 s t)
    ∧ (s.me.inHandler = false → s.me.preq.getLsbD 0 = true → s.me.regions = [] → ∃ t, exec .tyield s = .next t ∧ parked .yield s t)

/-- R183, R242: BAR arrives and waits at its barrier, MCOMMIT at the commit point of a mirrored block; in a block that is not
mirrored MCOMMIT goes on. -/
def Sys2Proof.Claims.barrierArrival : Prop :=
  ∀ (s : State) (k : BitVec 4), s.me.inHandler = false → s.me.regions = [] →
    (∃ t, exec (.bar k) s = .next t ∧ parked (.bar k.toNat) s t)
    ∧ ((s.tenant (s.tenantOf s.cur.blk)).fmask = 0 →
      ∃ t, exec .mcommit s = .next t ∧ (if s.myBlock.mirror.isSome then parked (.bar 16) s t else scalarResult 0 0 s t))

/-- R183: a barrier completes when every beam that has not exited has arrived: each of them goes on at its next word. -/
def Sys2Proof.Claims.barrierCompletes : Prop :=
  ∀ (s : State) (b k : Nat), k < 16 → s.onCore b = true → (s.block b).halt = none →
    (∃ e ∈ (s.block b).beams, e.2.exited = false) → (∀ e ∈ (s.block b).beams, e.2.exited = false → e.2.spark = .bar k) →
    ∃ t, exec (.barComplete b k) s = .next t
      ∧ (t.block b).beams = (s.block b).beams.map (fun e => (e.1, if e.2.exited then e.2 else { e.2 with spark := .none, spc := e.2.spc + 1 }))
      ∧ (∀ c, c ≠ b → t.block c = s.block c) ∧ ∀ l, t.peek l 1 = s.peek l 1

/-- R183, R242: arrival at a barrier and at a commit point, and a barrier's completion. -/
def Obligations.Barriers : Prop := barrierArrival ∧ barrierCompletes

/-- R185: the barrier-object instructions on an object that is in range and holds no poison: BOINIT, BOARRIVE and BOEXPECT
are accepted by the core, in order, and their stream goes on; BOTEST reads the phase, and BOWAIT goes on where it differs. The late stores
of their stream to the object come first (`u`, R84). -/
def Sys2Proof.Claims.barrierObjectInstructions : Prop :=
  ∀ (s : State) (a b d : BitVec 5) (k : BitVec 11) (ph : Bool) (off : Nat),
    let u := settled { sp := .scratch s.cur.blk, addr := off } 16 s
    let c := s.coreOf s.cur.blk
    let accepted (op : BoOp) (t : State) : Prop :=
      (t.core c).boPend = (s.core c).boPend ++ [{ blk := s.cur.blk, beam := s.cur.beam, off := off, op := op }]
        ∧ t.me = { u.me with spc := s.me.spc + 1, spark := .none } ∧ t.mem = u.mem ∧ t.host = u.host
        ∧ t.myBlock.scratch = u.myBlock.scratch ∧ (∀ e, e ≠ c → t.core e = s.core e)
    let n : Int := (s.rs b).toInt + k.toNat
    u.boPoisoned s.cur.blk off = false →
    (s.boCheck 1 (s.rs a) = .ok off → 1 ≤ (s.rs b + k.setWidth 64).toNat → (s.rs b + k.setWidth 64).toNat ≤ 32767 →
      ∃ t, exec (.boinit a b k) s = .next t ∧ accepted (.init (s.rs b + k.setWidth 64).toNat) t)
    ∧ (s.boCheck 2 (s.rs a) = .ok off → (u.boAccepted s.cur.blk off).pend ≠ 0 →
      ∃ t, exec (.boarrive a) s = .next t ∧ accepted .arrive t)
    ∧ (s.boCheck 2 (s.rs a) = .ok off → -(2 ^ 31) ≤ n → n < 2 ^ 31 →
      -(2 ^ 31) ≤ (u.boAccepted s.cur.blk off).bytes + n → (u.boAccepted s.cur.blk off).bytes + n < 2 ^ 31 →
      ∃ t, exec (.boexpect a b k) s = .next t ∧ accepted (.expect n) t)
    ∧ (s.boCheck 0 (s.rs a) = .ok off →
      (∃ t, exec (.botest d a) s = .next t ∧ scalarResult d (if (u.boAt s.cur.blk off).phase then 1 else 0) u t)
      ∧ (s.me.inHandler = false → (u.boAt s.cur.blk off).phase ≠ ph → ∃ t, exec (.bowait a ph) s = .next t ∧ scalarResult 0 0 u t)
      ∧ (s.me.inHandler = false → (u.boAt s.cur.blk off).phase = ph →
          ∃ t, exec (.bowait a ph) s = .next t ∧ beamAndIntake u t ∧ t.me = { u.me with spark := .bowait off ph }))

/-- R184, R185: an accepted update, performed on an object without poison: the object is what the update makes of it, with
the phase flipped and the arrivals due again when arrivals and bytes pending have both reached zero; BOWAIT then wakes, and one
that a phase has woken goes on whatever the phase has become since. -/
def Sys2Proof.Claims.barrierObjectUpdates : Prop :=
  (∀ (s : State) (c : Nat) (u : BoUpd) (r : List BoUpd), (s.core c).boPend = u :: r →
    s.poisonedAt { sp := .scratch u.blk, addr := u.off } 16 = false → (∀ x, u.op = .init x → x ≤ 32767) →
    ∃ t, exec (.boUpdatePerform c) s = .next t ∧ (t.core c).boPend = r
      ∧ (let o := s.boAt u.blk u.off
         let f (p : BoVal) : BoVal := if p.pend = 0 ∧ p.bytes = 0 then { p with phase := !p.phase, pend := p.expect } else p
         t.boAt u.blk u.off = match u.op with
          | .init x => { pend := x, expect := x, phase := false, bytes := 0 }
          | .arrive => f { o with pend := o.pend - 1 }
          | .expect y => f { o with bytes := (BitVec.ofInt 32 (o.bytes + y)).toInt }
          | .deliver n => f { o with bytes := (BitVec.ofInt 32 (o.bytes - n)).toInt })
      ∧ t.mem = s.mem ∧ t.host = s.host)
  ∧ (∀ (s : State) (b j off : Nat) (ph : Bool), s.onCore b = true → (s.block b).halt = none → (s.beamAt b j).exited = false →
    (s.beamAt b j).spark = .bowait off ph → s.poisonedAt { sp := .scratch b, addr := off } 16 = false →
    ((s.boAt b off).phase ≠ ph ∨ (s.beamAt b j).woken = true) →
    ∃ t, exec (.bowaitWake b j) s = .next t ∧ t.beamAt b j = { s.beamAt b j with spc := (s.beamAt b j).spc + 1, spark := .none, woken := false }
      ∧ ∀ l, t.peek l 1 = s.peek l 1)

/-- R184, R185: the barrier-object instructions, the performing of their updates and the waking of a wait. -/
def Obligations.BarrierObjects : Prop := barrierObjectInstructions ∧ barrierObjectUpdates

/-- R163, R165: WATCH of a line of this package adds it, or keeps a set that has it already; WAITW of an empty set answers 2,
a poll without a hit 1, a set with a hit four times the lowest entry that holds one, and otherwise it waits with its deadline;
every answer releases the set. The late stores of its stream to the line come before the read of a WATCH (`u`, R84). -/
def Sys2Proof.Claims.watchAndWait : Prop :=
  ∀ (s : State) (a d : BitVec 5) (nt : Bool) (l : Loc), s.me.inHandler = false →
    ((∀ op, s.asked (.watch s.cur.blk s.cur.beam) op ((s.rs a) &&& ~~~63).toNat 64 = none) → reachable 3 (s.rs a) 1 l s →
      let u := settled l.line 64 s
      u.poisonedAt l.line 64 = false → (s.me.watch.any (fun e => e.loc = l.line) = true ∨ s.me.watch.length < 4) →
      ∃ t, exec (.watch a) s = .next t ∧ t.me.spc = s.me.spc + 1 ∧ (∀ r, t.rs r = s.rs r)
        ∧ t.me.watch.map (fun e => (e.loc, e.hit)) = u.me.watch.map (fun e => (e.loc, e.hit))
            ++ (if s.me.watch.any (fun e => e.loc = l.line) then [] else [(l.line, false)])
        ∧ ∀ k, t.peek k 1 = u.peek k 1)
    ∧ (∃ t, exec (.waitw d a nt) s = .next t
        ∧ (∀ k, t.peek k 1 = s.peek k 1)
        ∧ (if s.me.watch = [] then scalarResult d 2 s t
            else match s.me.watch.findIdx? (·.hit) with
              | some k => t.me = { s.me with s := t.me.s, watch := [], spc := s.me.spc + 1, spark := .none, hitFor := 0 } ∧ t.rs d = (if d = 0 then 0 else BitVec.ofNat 64 (4 * k)) ∧ ∀ r, r ≠ d → t.rs r = s.rs r
              | none =>
                if s.rs a = 0 then t.me = { s.me with s := t.me.s, watch := [], spc := s.me.spc + 1, spark := .none, hitFor := 0 } ∧ t.rs d = (if d = 0 then 0 else 1) ∧ ∀ r, r ≠ d → t.rs r = s.rs r
                else t.me = { s.me with spark := .waitw (if s.rs a = BitVec.allOnes 64 then none else some (s.now + (s.rs a).toNat)) nt (s.rs a).toNat 0 }))

/-- R165, R166, R360: what ends a parked WAITW: a hit (status 0 with its entry), the deadline or the watchdog's 10 s (status
1, and the form without .nt traps SYNC.WAIT_TIMEOUT; status 0 where an entry of the set holds a hit); the set is released and the
stream goes on after the WAITW. -/
def Sys2Proof.Claims.waitEnds : Prop :=
  ∀ (s : State) (b j : Nat) (dl : Option Nat) (nt : Bool) (n counted : Nat),
    s.onCore b = true → (s.block b).halt = none → (s.beamAt b j).exited = false → (s.beamAt b j).spark = .waitw dl nt n counted →
    let answered (x : W64) (t : State) : Prop := (t.beamAt b j).watch = [] ∧ (t.beamAt b j).spc = (s.beamAt b j).spc + 1 ∧ (t.beamAt b j).spark = .none
      ∧ (s.waitDst b j ≠ 0 → (t.beamAt b j).s.get (s.waitDst b j).toNat 0 = x)
    let expired (t : State) : Prop := answered 1 t
      ∧ (nt = false → (t.beamAt b j).tcg.toNat % 16 = 5 ∧ (t.beamAt b j).tdr0.toNat % 2 ^ 16 = 11 ∧ (t.beamAt b j).tdr0.toNat / 2 ^ 16 = n % 2 ^ 16)
      ∧ (nt = true → (t.block b).halt = none)
    (∀ k, (s.beamAt b j).watch.findIdx? (·.hit) = some k →
      (∃ t, exec (.waitwWake b j) s = .next t ∧ answered (BitVec.ofNat 64 (4 * k)) t)
      ∧ (∀ t0, dl = some t0 → t0 ≤ s.now → ∃ t, exec (.waitwTimeout b j) s = .next t ∧ answered (BitVec.ofNat 64 (4 * k)) t ∧ (t.block b).halt = none)
      ∧ (1000000000 ≤ counted → ∃ t, exec (.watchdogExpiry b j) s = .next t ∧ answered (BitVec.ofNat 64 (4 * k)) t ∧ (t.block b).halt = none))
    ∧ ((s.beamAt b j).watch.findIdx? (·.hit) = none →
      (∀ t0, dl = some t0 → t0 ≤ s.now → ∃ t, exec (.waitwTimeout b j) s = .next t ∧ expired t)
      ∧ (1000000000 ≤ counted → ∃ t, exec (.watchdogExpiry b j) s = .next t ∧ expired t))

/-- R163 to R170: the instructions that watch lines and wait, and what ends a wait. -/
def Obligations.WatchesAndWaits : Prop := watchAndWait ∧ waitEnds

/-- R346: SEAL answers the first check that fails, and otherwise makes the image the object's newest version and answers its
number in the upper half. `u` is the machine with the image read. -/
def Obligations.SealAnswers : Prop :=
  ∀ (s u : State) (d a b : BitVec 5), (s.tenant (s.tenantOf s.cur.blk)).fmask = 0 → s.me.inHandler = false → regionsPast s →
    (s.readStaged (s.rs a) = .done none u → ∃ t, exec (.seal d a b) s = .next t ∧ scalarResult d 1 (u.forget u.whoMe) t)
    ∧ (∀ c e, s.readStaged (s.rs a) = .done (some c) u → u.sealFault (u.tenantOf u.cur.blk) (u.rs b) c = some e →
      ∃ t, exec (.seal d a b) s = .next t ∧ scalarResult d e (u.forget u.whoMe) t)
    ∧ (∀ c, s.readStaged (s.rs a) = .done (some c) u → u.sealFault (u.tenantOf u.cur.blk) (u.rs b) c = none →
      ∃ t, exec (.seal d a b) s = .next t ∧ t.me.spc = u.me.spc + 1
        ∧ (let p := (u.rs b).toNat
           let v := (u.progs.get p default).newest + 1
           t.rs d = (if d = 0 then 0 else BitVec.ofNat 64 (v * 2 ^ 32)) ∧ (t.progs.get p default).newest = v
             ∧ (t.progs.get p default).versions.find v = some c)
        ∧ ∀ l, t.peek l 1 = u.peek l 1)

namespace Sys2Proof.Claims

/-- R96, R97: the lane register that class V destination `code` names in lane `i`, if it names one. -/
def vTarget (s : State) (code i : Nat) : Option Nat :=
  if code < 320 then some code else if 384 ≤ code then some ((s.rix i).toNat + (code - 384)) else none

/-- A lane operation with class V destination `code` whose result in lane `i` is `f i`: the live active lanes of the register
it names in each lane (or of `ix`) take it; every other lane and register, and everything else, stands. -/
def laneResult (code : Nat) (f : Nat → W32) (s t : State) : Prop :=
  onlyBeam s.cur.blk s.cur.beam s t ∧ t.cur = { s.cur with flow := .go } ∧ t.fab = s.fab
    ∧ t.me = { s.me with v := t.me.v, ix := t.me.ix }
    ∧ (∀ i r, i < 32 → t.me.v.get (32 * r + i) 0
        = if s.cur.act.getLsbD i = true ∧ vTarget s code i = some r then f i else s.me.v.get (32 * r + i) 0)
    ∧ (∀ i, i < 32 → t.rix i = if s.cur.act.getLsbD i = true ∧ code = 332 then f i else s.rix i)

/-- A lane operation whose result in lane `i` is the 64 bits of `f i` in a register pair. -/
def pairResult (code : Nat) (f : Nat → W64) (s t : State) : Prop :=
  onlyBeam s.cur.blk s.cur.beam s t ∧ t.cur = { s.cur with flow := .go } ∧ t.fab = s.fab ∧ t.me = { s.me with v := t.me.v }
    ∧ (∀ i r, i < 32 → t.me.v.get (32 * r + i) 0
        = if s.cur.act.getLsbD i = true ∧ code < 320 ∧ r = code then (f i).setWidth 32
          else if s.cur.act.getLsbD i = true ∧ code < 320 ∧ r = code + 1 then ((f i) >>> 32).setWidth 32
          else s.me.v.get (32 * r + i) 0)

/-- A lane operation with a class P destination: predicate `n` takes `f i` in the lanes of `m`; p7 is written by nothing. -/
def predResult (n : Nat) (m : W32) (f : Nat → Bool) (s t : State) : Prop :=
  onlyBeam s.cur.blk s.cur.beam s t ∧ t.cur = { s.cur with flow := .go } ∧ t.fab = s.fab ∧ t.me = { s.me with p := t.me.p }
    ∧ (∀ k i, i < 32 → (t.rp k).getLsbD i = if k = n ∧ n ≠ 7 ∧ m.getLsbD i = true then f i else (s.rp k).getLsbD i)

/-- A lane operation with a class W destination. -/
def wResult (n : Nat) (x : W64) (s t : State) : Prop :=
  onlyBeam s.cur.blk s.cur.beam s t ∧ t.cur = { s.cur with flow := .go } ∧ t.fab = s.fab ∧ t.me = { s.me with w := t.me.w }
    ∧ t.rw n = x ∧ ∀ k, k ≠ n → t.rw k = s.rw k

end Sys2Proof.Claims

/-- R100, R105, R106: the one- and two-source integer operations, lane by lane. -/
def Obligations.LaneIntegerForms : Prop :=
  ∀ (s : State) (x : LaneOp),
    let a := s.src x .a
    let b := s.src x .b
    let d := x.d.toNat
    (∃ t, exec (.iadd x) s = .next t ∧ laneResult d (fun i => a i + b i) s t)
    ∧ (∃ t, exec (.isub x) s = .next t ∧ laneResult d (fun i => a i - b i) s t)
    ∧ (∃ t, exec (.imul x) s = .next t ∧ laneResult d (fun i => a i * b i) s t)
    ∧ (∃ t, exec (.imulh x) s = .next t ∧ laneResult d (fun i => BitVec.ofInt 32 ((a i).toInt * (b i).toInt / 2 ^ 32)) s t)
    ∧ (∃ t, exec (.imulhu x) s = .next t ∧ laneResult d (fun i => BitVec.ofNat 32 ((a i).toNat * (b i).toNat / 2 ^ 32)) s t)
    ∧ (∃ t, exec (.imin x) s = .next t ∧ laneResult d (fun i => if (a i).toInt < (b i).toInt then a i else b i) s t)
    ∧ (∃ t, exec (.imax x) s = .next t ∧ laneResult d (fun i => if (b i).toInt < (a i).toInt then a i else b i) s t)
    ∧ (∃ t, exec (.iminu x) s = .next t ∧ laneResult d (fun i => if (a i).toNat < (b i).toNat then a i else b i) s t)
    ∧ (∃ t, exec (.imaxu x) s = .next t ∧ laneResult d (fun i => if (b i).toNat < (a i).toNat then a i else b i) s t)
    ∧ (∃ t, exec (.iabs x) s = .next t ∧ laneResult d (fun i =>
        if x.mb 0 1 = 1 ∧ a i = 0x80000000 then 0x7FFFFFFF else if (a i).toInt < 0 then -(a i) else a i) s t)
    ∧ (∃ t, exec (.ishl x) s = .next t ∧ laneResult d (fun i => if 32 ≤ (b i).toNat then 0 else a i <<< (b i).toNat) s t)
    ∧ (∃ t, exec (.ishr x) s = .next t ∧ laneResult d (fun i => if 32 ≤ (b i).toNat then 0 else a i >>> (b i).toNat) s t)
    ∧ (∃ t, exec (.isra x) s = .next t ∧ laneResult d (fun i => (a i).sshiftRight (min (b i).toNat 31)) s t)
    ∧ (∃ t, exec (.popc x) s = .next t ∧ laneResult d (fun i => BitVec.ofNat 32 ((List.range 32).filter (fun j => (a i).getLsbD j)).length) s t)
    ∧ (∃ t, exec (.clz x) s = .next t ∧ ∃ n : Nat → Nat, laneResult d (fun i => BitVec.ofNat 32 (n i)) s t
        ∧ ∀ i, n i ≤ 32 ∧ (∀ j, j < n i → (a i).getLsbD (31 - j) = false) ∧ (n i < 32 → (a i).getLsbD (31 - n i) = true))
    ∧ (∃ t, exec (.brev x) s = .next t ∧ ∃ f, laneResult d f s t ∧ ∀ i j, j < 32 → (f i).getLsbD j = (a i).getLsbD (31 - j))
    ∧ (∃ t, exec (.bfx x) s = .next t ∧ ∃ f, laneResult d f s t ∧ ∀ i j, j < 32 →
        let pos := (b i).toNat % 256
        let len := (b i).toNat / 256 % 256
        let n := if 32 ≤ pos ∨ len = 0 then 0 else min len (32 - pos)
        (f i).getLsbD j = (if n = 0 then false else if x.mb 0 1 = 1 then (a i).getLsbD (pos + min j (n - 1)) else decide (j < n) && (a i).getLsbD (pos + j)))
    ∧ (∃ t, exec (.bperm x) s = .next t ∧ ∃ f, laneResult d f s t ∧ ∀ i j, j < 4 →
        let sel := (b i).toNat / 16 ^ j % 16
        let y := (a i).toNat / 256 ^ (sel % 4) % 256
        (f i).toNat / 256 ^ j % 256 = if 8 ≤ sel then 0 else if sel < 4 then y else if 128 ≤ y then 255 else 0)
    ∧ (∃ t, exec (.imov x) s = .next t ∧ laneResult d a s t)

/-- R100 to R102, R105: the three-source operations; the third source is field c, or the old destination in a short slot. -/
def Obligations.LaneThreeSourceForms : Prop :=
  ∀ (s : State) (x : LaneOp),
    let a := s.src x .a
    let b := s.src x .b
    let c (i : Nat) : W32 := if x.long then s.src x .c i else s.operand x.d.toNat 0 x.imm i
    (∃ t, exec (.imad x) s = .next t ∧ laneResult x.d.toNat (fun i => a i * b i + c i) s t)
    ∧ (∃ t, exec (.ilop x) s = .next t ∧ ∃ f, laneResult x.d.toNat f s t ∧ ∀ i j, j < 32 →
        (f i).getLsbD j = (x.m.toNat % 256).testBit (4 * ((a i).getLsbD j).toNat + 2 * ((b i).getLsbD j).toNat + ((c i).getLsbD j).toNat))
    ∧ (∃ t, exec (.ifsh x) s = .next t ∧ laneResult x.d.toNat (fun i =>
        if x.mb 0 1 = 1 then (((a i ++ b i) <<< ((c i).toNat % 32)) >>> 32).setWidth 32
        else ((a i ++ b i) >>> ((c i).toNat % 32)).setWidth 32) s t)
    ∧ (∃ t, exec (.bfi x) s = .next t ∧ ∃ f, laneResult x.d.toNat f s t ∧ ∀ i j, j < 32 →
        let pos := (b i).toNat % 256
        let len := (b i).toNat / 256 % 256
        let n := if 32 ≤ pos ∨ len = 0 then 0 else min len (32 - pos)
        (f i).getLsbD j = if pos ≤ j ∧ j < pos + n then (a i).getLsbD (j - pos) else (c i).getLsbD j)

/-- R104: ISEL has op10 0x011 and m10 zero, and selects a where c is not zero, else b; the selector of the short form is the
old vd, which the result replaces; a predicate code gives 0 or 1. -/
def Obligations.IselSelects : Prop :=
  (∀ (x : LaneOp) (sp : LaneSpec), (Instr.isel x).laneSpec = some sp → sp.code = 0x011 ∧ (sp.mOk = true ↔ x.m = 0)
      ∧ (x.long = true → sp.c = .src) ∧ sp.a = .src ∧ sp.b = .src)
  ∧ (∀ (s : State) (x : LaneOp), ∃ t, exec (.isel x) s = .next t ∧ laneResult x.d.toNat (fun i =>
      if (if x.long then s.src x .c i else s.operand x.d.toNat 0 x.imm i) ≠ 0 then s.src x .a i else s.src x .b i) s t)
  ∧ (∀ (s : State) (k p : Nat) (imm : W32) (i : Nat), p < 8 → s.operand (336 + p) k imm i = if (s.rp p).getLsbD i then 1 else 0)

/-- R108: IADDS has op10 0x01A and m10[9:1] zero; .s clamps the signed sum to 32 bits and .u the unsigned sum. -/
def Obligations.IaddsSaturates : Prop :=
  (∀ (x : LaneOp) (sp : LaneSpec), (Instr.iadds x).laneSpec = some sp → sp.code = 0x01A ∧ (sp.mOk = true ↔ x.m.toNat / 2 = 0))
  ∧ (∀ (s : State) (x : LaneOp), ∃ t, exec (.iadds x) s = .next t ∧ laneResult x.d.toNat (fun i =>
      if x.m.toNat % 2 = 0 then BitVec.ofInt 32 (max (-(2 ^ 31)) (min (2 ^ 31 - 1) ((s.src x .a i).toInt + (s.src x .b i).toInt)))
      else BitVec.ofNat 32 (min (2 ^ 32 - 1) ((s.src x .a i).toNat + (s.src x .b i).toNat))) s t)

/-- R117: UNPK has op10 0x103 and m10[9:3] zero, and extracts element e = b[2:0] mod (32 / N), sign- or zero-extended. -/
def Obligations.UnpkExtracts : Prop :=
  (∀ (x : LaneOp) (sp : LaneSpec), (Instr.unpk x).laneSpec = some sp → sp.code = 0x103 ∧ (sp.mOk = true ↔ x.m.toNat % 4 ≠ 3 ∧ x.m.toNat / 8 = 0))
  ∧ (∀ (s : State) (x : LaneOp), x.m.toNat % 4 ≠ 3 →
      let n : Nat := if x.m.toNat % 4 = 0 then 16 else if x.m.toNat % 4 = 1 then 8 else 4
      ∃ t, exec (.unpk x) s = .next t ∧ ∃ f, laneResult x.d.toNat f s t ∧ ∀ i j, j < 32 →
        let e := (s.src x .b i).toNat % 8 % (32 / n)
        (f i).getLsbD j = if j < n then (s.src x .a i).getLsbD (n * e + j)
          else x.m.getLsbD 2 && (s.src x .a i).getLsbD (n * e + n - 1))

/-- R97, R107, R122: IMOVX reads or writes the register that an index names, and LCLOCK samples the core's clock or the
reference time, the same in every lane. -/
def Obligations.IndexedMovesAndClocks : Prop :=
  ∀ (s : State) (x : LaneOp),
    (x.mb 0 1 = 0 → ∃ t, exec (.imovx x) s = .next t ∧ laneResult x.d.toNat (fun i => s.rv (x.a.toNat + (s.src x .b i).toNat) i) s t)
    ∧ (x.mb 0 1 = 1 → ∃ t, exec (.imovx x) s = .next t ∧ onlyBeam s.cur.blk s.cur.beam s t ∧ t.me = { s.me with v := t.me.v }
        ∧ ∀ i r, i < 32 → t.me.v.get (32 * r + i) 0
          = if s.cur.act.getLsbD i = true ∧ r = x.d.toNat + (s.src x .b i).toNat then s.src x .a i else s.me.v.get (32 * r + i) 0)
    ∧ (∃ t, exec (.lclock x) s = .next t ∧ laneResult x.d.toNat (fun _ =>
        let c := if x.mb 0 2 < 2 then s.cyclesOf (s.coreOf s.cur.blk) else s.reftime
        if x.mb 0 2 % 2 = 0 then c.setWidth 32 else (c >>> 32).setWidth 32) s t)

/-- R103, R111, R154: the operations that set a predicate lane by lane. -/
def Obligations.LaneComparisons : Prop :=
  ∀ (s : State) (x : LaneOp),
    let a := s.src x .a
    let b := s.src x .b
    let p := x.d.toNat - 336
    (∃ t, exec (.icmp x) s = .next t ∧ ∃ f, predResult p s.cur.act f s t ∧ ∀ i,
        (x.mb 0 4 = 0 → (f i = true ↔ a i = b i)) ∧ (x.mb 0 4 = 1 → (f i = true ↔ a i ≠ b i))
        ∧ (x.mb 0 4 = 2 → (f i = true ↔ (a i).toInt < (b i).toInt)) ∧ (x.mb 0 4 = 3 → (f i = true ↔ (a i).toInt ≤ (b i).toInt))
        ∧ (x.mb 0 4 = 4 → (f i = true ↔ (b i).toInt < (a i).toInt)) ∧ (x.mb 0 4 = 5 → (f i = true ↔ (b i).toInt ≤ (a i).toInt))
        ∧ (x.mb 0 4 = 6 → (f i = true ↔ (a i).toNat < (b i).toNat)) ∧ (x.mb 0 4 = 7 → (f i = true ↔ (a i).toNat ≤ (b i).toNat))
        ∧ (x.mb 0 4 = 8 → (f i = true ↔ (b i).toNat < (a i).toNat)) ∧ (x.mb 0 4 = 9 → (f i = true ↔ (b i).toNat ≤ (a i).toNat)))
    ∧ (∃ t, exec (.fcmp x) s = .next t ∧ predResult p s.cur.act (fun i => fcmpHolds (x.mb 4 3) (s.va x i) (s.vb x i)) s t)
    ∧ (∃ t, exec (.isap x) s = .next t ∧ predResult p s.cur.act (fun i =>
        decide (aperture (s.base x .a i) = apOf x) && (formFault (s.base x .a i)).isNone) s t)

/-- R67 to R70, R109, R110, R112: the FP32 operations: the exact result of the modified sources, rounded once under the
governing mode; FMIN and FMAX choose a source; FCLASS answers the class mask. -/
def Obligations.LaneFloatForms : Prop :=
  ∀ (s : State) (x : LaneOp),
    let m := s.mode x
    (∃ t, exec (.fadd x) s = .next t ∧ laneResult x.d.toNat (fun i => s.round32 x (FVal.add m (s.va x i) (s.vb x i))) s t)
    ∧ (∃ t, exec (.fsub x) s = .next t ∧ laneResult x.d.toNat (fun i => s.round32 x (FVal.add m (s.va x i) (s.vb x i).negate)) s t)
    ∧ (∃ t, exec (.fmul x) s = .next t ∧ laneResult x.d.toNat (fun i => s.round32 x (FVal.mul (s.va x i) (s.vb x i))) s t)
    ∧ (∃ t, exec (.ffma x) s = .next t ∧ laneResult x.d.toNat (fun i => s.round32 x (FVal.add m (FVal.mul (s.va x i) (s.vb x i)) (s.vc x i))) s t)
    ∧ (∃ t, exec (.fmin x) s = .next t ∧ laneResult x.d.toNat (fun i => BitVec.ofNat 32 (FVal.flushIn .f32 s.fzo (fminmax false (s.fa x i) (s.fb x i)))) s t)
    ∧ (∃ t, exec (.fmax x) s = .next t ∧ laneResult x.d.toNat (fun i => BitVec.ofNat 32 (FVal.flushIn .f32 s.fzo (fminmax true (s.fa x i) (s.fb x i)))) s t)
    ∧ (∃ t, exec (.fclass x) s = .next t ∧ laneResult x.d.toNat (fun i => BitVec.ofNat 32 (fclassMask (s.fa x i))) s t)

/-- R113, R119, R120: the packed-half operations, each element rounded once, and the dot products: an exact integer sum that
saturates, and one rounding of c plus the group. -/
def Obligations.LanePackedForms : Prop :=
  ∀ (s : State) (x : LaneOp),
    let m := s.mode x
    let f := halfFmt x
    let el (k : Field) (bit j i : Nat) : FVal := halfEl s f (x.mb bit 1 == 1) (s.src x k i) j
    let two (g : Nat → Nat → FVal) (i : Nat) : W32 := BitVec.ofNat 32 (FVal.encode f m s.fzo (g 0 i) + 2 ^ 16 * FVal.encode f m s.fzo (g 1 i))
    let a := s.src x .a
    let b := s.src x .b
    let third (i : Nat) : W32 := s.src3 x i
    let c32 (i : Nat) : FVal := FVal.decode .f32 (FVal.flushIn .f32 s.fzi (s.src x .c i).toNat)
    (∃ t, exec (.hadd2 x) s = .next t ∧ laneResult x.d.toNat (two (fun j i => FVal.add m (el .a 0 j i) (el .b 1 j i))) s t)
    ∧ (∃ t, exec (.hmul2 x) s = .next t ∧ laneResult x.d.toNat (two (fun j i => FVal.mul (el .a 0 j i) (el .b 1 j i))) s t)
    ∧ (∃ t, exec (.hfma2 x) s = .next t ∧ laneResult x.d.toNat (two (fun j i => FVal.add m (FVal.mul (el .a 0 j i) (el .b 1 j i)) (el .c 2 j i))) s t)
    ∧ (∃ t, exec (.idp4 x) s = .next t ∧ laneResult x.d.toNat (fun i => BitVec.ofInt 32 (satI32 ((third i).toInt + idpSum 4 (a i) (b i)))) s t)
    ∧ (∃ t, exec (.idp8 x) s = .next t ∧ laneResult x.d.toNat (fun i => BitVec.ofInt 32 (satI32 ((third i).toInt + idpSum 8 (a i) (b i)))) s t)
    ∧ (∃ t, exec (.fdp8 x) s = .next t ∧ laneResult x.d.toNat (fun i => s.round32 x (FVal.add m (c32 i)
        (FVal.group m (fdpProducts 8 (fp8Fmt (x.mb 0 1)) (fp8Fmt (x.mb 1 1)) (a i) (b i))))) s t)
    ∧ (∃ t, exec (.fdp4 x) s = .next t ∧ laneResult x.d.toNat (fun i => s.round32 x (FVal.add m (c32 i)
        (FVal.group m (fdpProducts 4 .e2m1 .e2m1 (a i) (b i))))) s t)
    ∧ (∀ i j : Nat, idpSum 8 (a i) (b j) = (BitVec.ofNat 8 (a i).toNat).toInt * (BitVec.ofNat 8 (b j).toNat).toInt
        + (BitVec.ofNat 8 ((a i).toNat / 2 ^ 8)).toInt * (BitVec.ofNat 8 ((b j).toNat / 2 ^ 8)).toInt
        + (BitVec.ofNat 8 ((a i).toNat / 2 ^ 16)).toInt * (BitVec.ofNat 8 ((b j).toNat / 2 ^ 16)).toInt
        + (BitVec.ofNat 8 ((a i).toNat / 2 ^ 24)).toInt * (BitVec.ofNat 8 ((b j).toNat / 2 ^ 24)).toInt)

/-- R114 to R118: CVT takes an element of a through its value to the destination format; CVTS and PACK as their rules say. -/
def Obligations.LaneConversions : Prop :=
  ∀ (s : State) (x : LaneOp),
    let a := s.src x .a
    let b := s.src x .b
    (∃ t, exec (.cvt x) s = .next t ∧ laneResult x.d.toNat (fun i =>
        let n := cvtWidth (x.mb 7 3)
        BitVec.ofNat 32 (cvtWrite (x.mb 0 3) (s.mode x) s.fzo (cvtRead (x.mb 7 3) s.fzi ((a i).toNat / 2 ^ (n * ((b i).toNat % 8 % (32 / n))) % 2 ^ n)))) s t)
    ∧ (∃ t, exec (.cvts x) s = .next t ∧ laneResult x.d.toNat (fun i =>
        let val (k : Nat) : FVal := FVal.decode .f32 (FVal.flushIn .f32 s.fzi (a k).toNat)
        cvtsLane (cvtsFmt x) (s.mode x) s.fzo
          (((List.range 32).filter (fun k => s.cur.act.getLsbD k && k / 16 == i / 16)).map (fun k => (k, val k))) i (val i)) s t)
    ∧ (x.mb 0 2 ≠ 3 → x.mb 2 2 ≠ 3 → ∃ t, exec (.pack x) s = .next t ∧ laneResult x.d.toNat (fun i =>
        let n := if x.mb 0 2 = 0 then 16 else if x.mb 0 2 = 1 then 8 else 4
        let low : Nat := if x.mb 2 2 = 0 then (b i).toNat % 2 ^ n
          else if x.mb 2 2 = 1 then (max (-(2 ^ (n - 1))) (min (2 ^ (n - 1) - 1) (b i).toInt) % 2 ^ n).toNat
          else min (b i).toNat (2 ^ n - 1)
        BitVec.ofNat 32 ((a i).toNat * 2 ^ n + low)) s t)

namespace Sys2Proof.Claims

/-- R121: the code that special function `k` (op10 minus 0x140) gives of the FP32 code `c`: its exact value, rounded once. -/
def sfu (k : Nat) (m : Rm) (z : Bool) (c : Nat) : Nat := FVal.encode .f32 m z (sfuExact k (FVal.decode .f32 c))

/-- The significand and the exponent field of a normal FP32 code. -/
def sig32 (c : Nat) : Nat := 2 ^ 23 + c % 2 ^ 23
def exp32 (c : Nat) : Nat := c / 2 ^ 23 % 256

/-- R121: the special inputs of the eight functions, in every mode, with and without `fzo`. -/
def sfuCorners : Prop :=
  ∀ (m : Rm) (z : Bool) (c : Nat), c < 2 ^ 32 →
    let neg : Prop := 2 ^ 31 < c
    let nan : Nat := 0x7FC00000
    let inf : Nat := 0x7F800000
    let low : Nat := 2 ^ 31
    (∀ k, inf < c % low → sfu k m z c = nan)
    ∧ (sfu 0 m z 0 = inf ∧ sfu 0 m z low = low + inf ∧ sfu 0 m z inf = 0 ∧ sfu 0 m z (low + inf) = low)
    ∧ (sfu 1 m z 0 = inf ∧ sfu 1 m z low = low + inf ∧ (neg → sfu 1 m z c = nan) ∧ sfu 1 m z inf = 0)
    ∧ (sfu 2 m z 0 = 0 ∧ sfu 2 m z low = low ∧ (neg → sfu 2 m z c = nan) ∧ sfu 2 m z inf = inf)
    ∧ (sfu 3 m z (low + inf) = 0 ∧ sfu 3 m z inf = inf)
    ∧ (sfu 4 m z 0 = low + inf ∧ sfu 4 m z low = low + inf ∧ (neg → sfu 4 m z c = nan) ∧ sfu 4 m z 0x3F800000 = 0 ∧ sfu 4 m z inf = inf)
    ∧ (sfu 5 m z 0 = 0 ∧ sfu 5 m z low = low ∧ sfu 5 m z inf = nan ∧ sfu 5 m z (low + inf) = nan)
    ∧ (sfu 6 m z inf = nan ∧ sfu 6 m z (low + inf) = nan)
    ∧ (sfu 7 m z 0 = 0 ∧ sfu 7 m z low = low ∧ sfu 7 m z inf = 0x3F800000 ∧ sfu 7 m z (low + inf) = 0xBF800000)

/-- R121: FRCP, FSQRT and FRSQ of a normal source whose reciprocal is normal: the result is less than one unit of its last place from the
exact value, at most half a unit under rne, and never above it in magnitude under rtz. `1/a`, `√a` and `1/√a` are said through the product
`r a`, the square `r²` and the product `r² a`. -/
def sfuAlgebraic : Prop :=
  ∀ (m : Rm) (z : Bool) (c : Nat), c < 2 ^ 32 → 1 ≤ exp32 c →
    let M := sig32 c
    let E := exp32 c
    (E ≤ 252 →
      let r := sfu 0 m z c
      let e := exp32 r + E
      let p := M * sig32 r * 2 ^ e
      r / 2 ^ 31 = c / 2 ^ 31 ∧ 1 ≤ exp32 r ∧ p < 2 ^ 300 + M * 2 ^ e ∧ 2 ^ 300 < p + M * 2 ^ e
        ∧ (m = .rne → 2 * p ≤ 2 * 2 ^ 300 + M * 2 ^ e ∧ 2 * 2 ^ 300 ≤ 2 * p + M * 2 ^ e) ∧ (m = .rtz → p ≤ 2 ^ 300))
    ∧ (E ≤ 254 → c < 2 ^ 31 →
      (let r := sfu 2 m z c
       let R := sig32 r
       let e := 2 * exp32 r
       (R - 1) ^ 2 * 2 ^ e < M * 2 ^ (E + 150) ∧ M * 2 ^ (E + 150) < (R + 1) ^ 2 * 2 ^ e
         ∧ (m = .rne → (2 * R - 1) ^ 2 * 2 ^ e ≤ 4 * M * 2 ^ (E + 150) ∧ 4 * M * 2 ^ (E + 150) ≤ (2 * R + 1) ^ 2 * 2 ^ e)
         ∧ (m = .rtz → R ^ 2 * 2 ^ e ≤ M * 2 ^ (E + 150)))
      ∧ (let r := sfu 1 m z c
         let R := sig32 r
         let e := 2 * exp32 r + E
         (R - 1) ^ 2 * M * 2 ^ e < 2 ^ 450 ∧ 2 ^ 450 < (R + 1) ^ 2 * M * 2 ^ e
           ∧ (m = .rne → (2 * R - 1) ^ 2 * M * 2 ^ e ≤ 4 * 2 ^ 450 ∧ 4 * 2 ^ 450 ≤ (2 * R + 1) ^ 2 * M * 2 ^ e)
           ∧ (m = .rtz → R ^ 2 * M * 2 ^ e ≤ 2 ^ 450)))

/-- R121: the other functions where their exact values, or on which side of a code they lie, are known without a series: the powers of two
and their logarithms, an exponent beyond the range, and sources near zero or, for FTANH, far from it; and one ordinary value of each. -/
def sfuTranscendental : Prop :=
  (∀ (m : Rm) (z : Bool) (n : Int), -126 ≤ n → n ≤ 127 →
    sfu 3 m z (FVal.encode .f32 .rne false (FVal.ofInt n 0 false)) = (n + 127).toNat * 2 ^ 23
      ∧ sfu 4 m z ((n + 127).toNat * 2 ^ 23) = FVal.encode .f32 .rne false (FVal.ofInt n 0 false))
  ∧ (∀ (z : Bool) (c : Nat),
    (0x44000000 ≤ c → c < 0x7F800000 → sfu 3 .rne z c = 0x7F800000 ∧ sfu 3 .rtz z c = 0x7F7FFFFF)
    ∧ (0xC4000000 ≤ c → c < 0xFF800000 → sfu 3 .rne z c = 0 ∧ sfu 3 .rtz z c = 0)
    ∧ (0x00800000 < c → c < 0x21800000 → ∀ s, s < 2 → ∀ k, k = 5 ∨ k = 7 → sfu k .rne z (2 ^ 31 * s + c) = 2 ^ 31 * s + c ∧ sfu k .rtz z (2 ^ 31 * s + c) = 2 ^ 31 * s + c - 1)
    ∧ (0 < c → c < 0x21800000 → ∀ s, s < 2 → sfu 6 .rne z (2 ^ 31 * s + c) = 0x3F800000 ∧ sfu 6 .rtz z (2 ^ 31 * s + c) = 0x3F7FFFFF)
    ∧ (0x42800000 ≤ c → c < 0x7F800000 → ∀ s, s < 2 → sfu 7 .rne z (2 ^ 31 * s + c) = 2 ^ 31 * s + 0x3F800000 ∧ sfu 7 .rtz z (2 ^ 31 * s + c) = 2 ^ 31 * s + 0x3F7FFFFF))
  ∧ sfu 5 .rne false 0x3F800000 = 0x3F576AA4 ∧ sfu 6 .rne false 0x3F800000 = 0x3F0A5140 ∧ sfu 7 .rne false 0x3F800000 = 0x3F42F7D6
  ∧ sfu 3 .rne false 0x3F000000 = 0x3FB504F3 ∧ sfu 4 .rne false 0x40400000 = 0x3FCAE00D

end Sys2Proof.Claims

/-- R121: the special functions complete, with the function of the modified source in every active lane; their special inputs; the
bounds of correct rounding for the algebraic ones, and for the others the values that are known without a series. -/
def Obligations.LaneSpecialFunctions : Prop :=
  (∀ (s : State) (x : LaneOp),
    let f (k : Nat) (i : Nat) : W32 := BitVec.ofNat 32 (sfu k (s.mode x) s.fzo (s.fa x i))
    (∃ t, exec (.frcp x) s = .next t ∧ laneResult x.d.toNat (f 0) s t) ∧ (∃ t, exec (.frsq x) s = .next t ∧ laneResult x.d.toNat (f 1) s t)
    ∧ (∃ t, exec (.fsqrt x) s = .next t ∧ laneResult x.d.toNat (f 2) s t) ∧ (∃ t, exec (.fexp2 x) s = .next t ∧ laneResult x.d.toNat (f 3) s t)
    ∧ (∃ t, exec (.flog2 x) s = .next t ∧ laneResult x.d.toNat (f 4) s t) ∧ (∃ t, exec (.fsin x) s = .next t ∧ laneResult x.d.toNat (f 5) s t)
    ∧ (∃ t, exec (.fcos x) s = .next t ∧ laneResult x.d.toNat (f 6) s t) ∧ (∃ t, exec (.ftanh x) s = .next t ∧ laneResult x.d.toNat (f 7) s t))
  ∧ sfuCorners ∧ sfuAlgebraic ∧ sfuTranscendental

/-- R138 to R140, R143, R144: the words that combine or choose lanes within a tile, in the lanes of live(act). -/
def Obligations.CrossLaneForms : Prop :=
  ∀ (s : State) (x : LaneOp),
    let a := s.src x .a
    let W := s.me.tile
    let act (j : Nat) : Bool := s.cur.act.getLsbD j
    let mates (i : Nat) : List Nat := (List.range 32).filter (fun j => act j && j / W == i / W)
    let p := x.d.toNat - 336
    (∃ t, exec (.shfl x) s = .next t ∧ ∃ sor : W32,
        laneResult x.d.toNat (fun i => match s.shflFrom x i with | none => a i | some j => if s.me.dead.getLsbD j then 0 else a j)
          (s.setMe (fun b => { b with sor := b.sor ||| sor })) t
        ∧ ∀ i, i < 32 → sor.getLsbD i = (act i && (match s.shflFrom x i with | none => true | some j => s.me.dead.getLsbD j)))
    ∧ (x.mb 0 2 = 0 → ∃ t, exec (.vote x) s = .next t ∧ predResult p s.cur.act (fun i => (mates i).any (fun j => a j != 0)) s t)
    ∧ (x.mb 0 2 = 1 → ∃ t, exec (.vote x) s = .next t ∧ predResult p s.cur.act (fun i => (mates i).all (fun j => a j != 0)) s t)
    ∧ (x.mb 0 2 = 2 → ∃ t, exec (.vote x) s = .next t ∧ predResult p s.cur.act (fun i => (mates i).all (fun j => a j == a i)) s t)
    ∧ (x.mb 0 2 = 3 → ∃ t, exec (.vote x) s = .next t ∧ ∃ y : W64, wResult (x.d.toNat - 324) y s t
        ∧ ∀ i : Nat, y.getLsbD i = (decide (i < 32) && act i && a i != 0))
    ∧ (∃ t, exec (.redux x) s = .next t ∧ wResult (x.d.toNat - 324)
        ((((List.range 32).filter (fun j => act j && j / W == (s.src x .b 0).toNat % (32 / W))).foldl (fun r j => s.crossOp (x.mb 0 4) r (a j)) (State.crossId (x.mb 0 4))).setWidth 64) s t)
    ∧ (∃ t, exec (.lpart x) s = .next t ∧ t = (s.setMe (fun b => { b with tile := 2 ^ x.mb 0 3 })).flow .go)
    ∧ (∀ u, s.me.unit s.cur.unit = some u → ∃ t, exec (.lelect x) s = .next t ∧ predResult p (u.mask &&& ~~~s.me.dead) (fun i =>
        act i && (List.range i).all (fun j => !(act j && (x.mb 0 1 != 1 || j / W == i / W)))) s t)
    ∧ (∃ t, exec (.lrand x) s = .next t ∧ laneResult x.d.toNat (fun i => mix s.me.seed (32 * s.me.ctr + BitVec.ofNat 64 i))
        (s.setMe (fun b => { b with ctr := b.ctr + 1 })) t)

/-- R141: SCAN combines, for each lane of live(act), the values of the lanes of its tile in live(act) up to it (.incl) or
before it (.excl), in ascending order from the identity; lanes outside live(act) neither contribute nor receive. -/
def Obligations.ScanForms : Prop :=
  ∀ (s : State) (x : LaneOp), ∃ t, exec (.scan x) s = .next t ∧ laneResult x.d.toNat (fun i =>
    ((List.range 32).filter (fun j => s.cur.act.getLsbD j && j / s.me.tile == i / s.me.tile && (if x.mb 4 1 = 1 then decide (j < i) else decide (j ≤ i)))).foldl
      (fun r j => s.crossOp (x.mb 0 4) r (s.src x .a j)) (State.crossId (x.mb 0 4))) s t

/-- R142: MATCH answers, in each lane of live(act), the mask of the lanes of its tile in live(act) that hold its value; its
own bit is always set. -/
def Obligations.MatchForms : Prop :=
  ∀ (s : State) (x : LaneOp), ∃ t, exec (.match x) s = .next t ∧ ∃ f, laneResult x.d.toNat f s t
    ∧ (∀ i j, i < 32 → s.cur.act.getLsbD i = true → j < 32 →
        ((f i).getLsbD j = true ↔ j / s.me.tile = i / s.me.tile ∧ s.cur.act.getLsbD j = true ∧ s.src x .a j = s.src x .a i))
    ∧ (∀ i, i < 32 → s.cur.act.getLsbD i = true → (f i).getLsbD i = true)

namespace Sys2Proof.Claims

/-- A control word whose only effect is on the issuing unit, which becomes `y` or ends. -/
def unitMoves (y : Option LUnit) (s t : State) : Prop :=
  onlyBeam s.cur.blk s.cur.beam s t ∧ t.cur = { s.cur with flow := .jumped } ∧ t.fab = s.fab ∧ t.me = s.me.setUnit s.cur.unit y

/-- The two lane slots of the beam become `lit` and `shade`; of the rest of the beam nothing differs. -/
def slotsMove (lit shade : Option LUnit) (s t : State) : Prop :=
  beamAndIntake s t ∧ t.cur = { s.cur with flow := .jumped } ∧ t.me = { s.me with lit := lit, shade := shade }

/-- A fragment `y` has been detached into record `r`, written at `l`, and the issuing unit goes on as `keep`. -/
def detaches (r : Nat) (l : Loc) (y keep : LUnit) (s t : State) : Prop :=
  t.cur = { s.cur with flow := .jumped } ∧ t.me.frags.find r = some { y with queued := true } ∧ t.me.unit s.cur.unit = some keep
    ∧ (∀ q, q ≠ r → q + 2 ≠ s.cur.unit → t.me.frags.find q = s.me.frags.find q) ∧ t.me.v = s.me.v ∧ t.me.s = s.me.s
    ∧ t.peek l 16 = recordBytes y
    ∧ ∀ k : Loc, (k.sp ≠ l.sp ∨ k.addr < l.addr ∨ l.addr + 16 ≤ k.addr) → t.peek k 1 = s.peek k 1

/-- A store to the page that `page` names needs no log entry: none is kept, or the page has its entry. -/
def noLogDue (page : Option (Nat × Nat × Nat)) (s : State) : Prop :=
  ∀ t base z, page = some (t, base, z) → (s.tenant t).dlbase = 0 ∨ (s.tenant t).dirty.contains base = true

/-- Record `r` is the free record that a detach takes, and its bytes can be written at `l`, in this package, ungated; the word has begun
to write none. -/
def recordPlace (r : Nat) (l : Loc) (s : State) : Prop :=
  s.pinnedRec = none ∧ State.freeRecord s.me = some r ∧ (∀ node, l.sp ≠ .remote node) ∧ s.gated s.cur.blk l = false
    ∧ s.asked (.lane s.cur.blk s.cur.beam s.cur.unit 32) 2 (s.recordVa s.cur.blk s.cur.beam r) 16 = none ∧ ∃ page, noLogDue page s
    ∧ s.taskView s.myBlock.task (s.recordVa s.cur.blk s.cur.beam r)
        (s.xlat (s.ctxOf s.cur.blk) (s.tenantOf s.cur.blk) (s.recordVa s.cur.blk s.cur.beam r) true) = .ok l page

/-- A lane word at its first issue: its unit holds no word, has asked for nothing, and no late store precedes it, of the beam's lanes or of
its scalar stream (R83, R84); the block is not mirrored. -/
def firstIssue (s : State) : Prop :=
  (∀ y, s.me.unit s.cur.unit = some y → y.held = none) ∧ s.myBlock.mirror = none
    ∧ (∀ e, e ∈ s.fab.reqs → ∀ i, e.2.who ≠ s.whoLane i) ∧ ∀ e, e ∈ s.me.late → e.lane = none ∧ e.both = false

/-- Every lane of a memory word of kind `kind` passes its checks and finds its `n` bytes at `loc i`, in this package and in one 8-byte
unit (as every access is but a private one under a base that is no multiple of 8, R19), with no gate, no dirty log entry due and, where the word reads, no poison; the word is at its first issue. -/
def lanesReach (kind n : Nat) (addr : Nat → W64) (loc : Nat → Loc) (s : State) : Prop :=
  firstIssue s
    ∧ s.accessCause s.cur.blk s.cur.beam ((lanesOf s.cur.act).map (fun i => (i, addr i))) n kind false = none
    ∧ ∀ i, active i s → s.splitAt s.cur.blk s.cur.beam i (addr i) n = none ∧ (∀ node, (loc i).sp ≠ .remote node) ∧ (kind ≠ 1 → s.poisonedAt (loc i) n = false)
        ∧ ∃ page, noLogDue page s ∧ s.locate s.cur.blk s.cur.beam i (addr i) (kind != 0) = .ok (loc i) page

/-- The lanes' bytes do not overlap. -/
def lanesApart (n : Nat) (loc : Nat → Loc) (s : State) : Prop :=
  ∀ i j, active i s → active j s → i ≠ j →
    (loc i).sp ≠ (loc j).sp ∨ (loc i).addr + n ≤ (loc j).addr ∨ (loc j).addr + n ≤ (loc i).addr

/-- Every active lane's access is left to be performed later than its word issues (R84, R150), and no two name one 8-byte unit. -/
def lanesLater (loc : Nat → Loc) (s : State) : Prop :=
  s.cur.act ≠ 0 ∧ (∀ i, active i s → s.cur.later.getLsbD i = true)
    ∧ ∀ i j, active i s → active j s → i ≠ j → (loc i).unit ≠ (loc j).unit

/-- After a storing word each active lane's bytes hold the low bytes of `x i`, and every other byte of memory stands. -/
def lanesStored (n : Nat) (loc : Nat → Loc) (x : Nat → Nat) (s t : State) : Prop :=
  (∀ i, active i s → t.peek (loc i) n = toBytes n (x i))
    ∧ ∀ k : Loc, (∀ i, active i s → k.sp ≠ (loc i).sp ∨ k.addr < (loc i).addr ∨ (loc i).addr + n ≤ k.addr) → t.peek k 1 = s.peek k 1

/-- The registers that a lane operation's results leave: as `laneResult` and `pairResult` say of the registers. -/
def lanesTook (code n : Nat) (f : Nat → Nat) (sx : Bool) (s t : State) : Prop :=
  ∀ i r, i < 32 → t.me.v.get (32 * r + i) 0 =
    if ¬ active i s then s.me.v.get (32 * r + i) 0
    else if n = 8 then (if code < 320 ∧ r = code then BitVec.ofNat 32 (f i) else if code < 320 ∧ r = code + 1 then BitVec.ofNat 32 (f i / 2 ^ 32) else s.me.v.get (32 * r + i) 0)
    else if vTarget s code i = some r then (if sx then BitVec.ofInt 32 (BitVec.ofNat (8 * n) (f i)).toInt else BitVec.ofNat 32 (f i))
    else s.me.v.get (32 * r + i) 0

/-- R149, R151: the same of `ix`, which takes a value of up to 4 bytes where it is the destination (code 332). -/
def ixTook (code n : Nat) (f : Nat → Nat) (sx : Bool) (s t : State) : Prop :=
  ∀ i, i < 32 → t.rix i =
    if active i s ∧ n ≠ 8 ∧ code = 332 then (if sx then BitVec.ofInt 32 (BitVec.ofNat (8 * n) (f i)).toInt else BitVec.ofNat 32 (f i)) else s.rix i

end Sys2Proof.Claims

/-- R127 to R130: the control words of the lane stream: where no lane or every lane takes the target, a split into the two
slots, a detach into private memory, a jump, and the ends of lanes and units. -/
def Sys2Proof.Claims.laneControlFlow : Prop :=
  ∀ (s : State) (x : LaneOp) (y : LUnit), s.me.unit s.cur.unit = some y →
    let taken := s.selected x
    let left := y.mask &&& ~~~taken
    let tgt := State.ctlTarget x
    let tok := State.ctlToken x
    let low := popc taken ≤ popc left
    let go : LUnit := { pc := tgt, mask := taken, token := tok }
    let fall : LUnit := { pc := y.pc + 1, mask := left, token := tok }
    let stay : LUnit := { pc := y.pc + 1, mask := left, token := y.token }
    (taken = 0 → ∃ t, exec (.lbr x) s = .next t ∧ unitMoves (some { pc := y.pc + 1, mask := y.mask, token := tok }) s t)
    ∧ (taken = 0 → ∃ t, exec (.lbrk x) s = .next t ∧ unitMoves (some { pc := y.pc + 1, mask := y.mask, token := y.token }) s t)
    ∧ (s.offCode tgt = false →
      (∃ t, exec (.ljmp x) s = .next t ∧ unitMoves (some { pc := tgt, mask := y.mask, token := y.token }) s t)
      ∧ (taken ≠ 0 → left = 0 → (∃ t, exec (.lbr x) s = .next t ∧ unitMoves (some { pc := tgt, mask := y.mask, token := tok }) s t)
        ∧ ∃ t, exec (.lbrk x) s = .next t ∧ unitMoves (some { pc := tgt, mask := y.mask, token := tok }) s t)
      ∧ (taken ≠ 0 → left ≠ 0 → s.slotFree = true → s.pinnedRec = none → (∃ t, exec (.lbr x) s = .next t ∧ slotsMove (some fall) (some go) s t)
        ∧ ∃ t, exec (.lbrk x) s = .next t ∧ (if s.cur.unit = 0 then slotsMove (some stay) (some go) s t else slotsMove (some go) (some stay) s t))
      ∧ (taken ≠ 0 → left ≠ 0 → s.slotFree = false → ∀ r l, recordPlace r l s →
        (∃ t, exec (.lbr x) s = .next t ∧ (if low then detaches r l go fall s t else detaches r l fall go s t))
        ∧ ∃ t, exec (.lbrk x) s = .next t ∧ detaches r l go stay s t))
    ∧ (∃ t, exec (.lend x) s = .next t ∧ unitMoves none s t)
    ∧ (∃ t, exec (.lkill x) s = .next t ∧ beamAndIntake s t ∧ t.me = ({ s.me with retired := s.me.retired ||| s.cur.act } : Beam).setUnit s.cur.unit
        (if y.mask &&& ~~~s.cur.act = 0 then none else some { y with mask := y.mask &&& ~~~s.cur.act }))
    ∧ (∃ t, exec (.lnop x) s = .next t ∧ t = s.flow .go)

/-- R130: LJOIN passes a unit whose token differs, keeps one that another carrier of its token has not joined yet, and the
arrival that completes the set merges the masks at the next word with the returned token, into the lit slot. -/
def Sys2Proof.Claims.laneJoins : Prop :=
  ∀ (s : State) (x : LaneOp) (y z : LUnit) (rtok : BitVec 12), s.me.unit s.cur.unit = some y →
    let tok := State.ctlToken x
    (y.token ≠ tok → ∃ t, exec (.ljoin x) s = .next t ∧ t = s.flow .go)
    ∧ (y.token = tok → s.joinAt s.cur.blk y.pc = some (tok, rtok) → s.me.frags = [] →
      (s.cur.unit = 0 → s.me.shade = none → ∃ t, exec (.ljoin x) s = .next t
        ∧ slotsMove (some { pc := y.pc + 1, mask := y.mask, token := rtok }) none s t)
      ∧ (s.cur.unit = 0 → s.me.shade = some z → z.token = tok → z.join = false → ∃ t, exec (.ljoin x) s = .next t
        ∧ slotsMove (some { y with join := true, held := none }) (some z) s t)
      ∧ (s.cur.unit = 1 → s.me.lit = some z → z.token = tok → z.join = true → z.pc = y.pc → ∃ t, exec (.ljoin x) s = .next t
        ∧ slotsMove (some { pc := y.pc + 1, mask := z.mask ||| y.mask, token := rtok }) none s t))

/-- R127 to R130: the control words of the lane stream, joins among them. -/
def Obligations.LaneControl : Prop := laneControlFlow ∧ laneJoins

/-- R147 to R155: the memory words of the lanes, where every active lane passes its checks: what is read goes to the
destination registers (or to `ix`), what is stored reads back, and every byte outside the lanes' bytes stands. Where the step leaves the
lanes' accesses for later (R84, R150; log entry 20, DESIGN CHOICE), a plain ST goes on with its stores still to be performed, where none
goes to the own core over the cluster's links (R237), and a load waits with its lanes unfinished. -/
def Sys2Proof.Claims.laneMemoryWords : Prop :=
  ∀ (s : State) (x : LaneOp) (loc : Nat → Loc),
    let n := 2 ^ x.mb 0 2
    let m := 2 ^ x.mb 4 2
    let d := x.d.toNat
    let full (a : Nat) (f : Field) (i : Nat) : Nat := (if a = 8 then s.src64 x f i else (s.src x f i).setWidth 64).toNat
    let old (a : Nat) (i : Nat) : Nat := ofBytes (s.peek (loc i) a)
    (lanesReach 0 n (s.laneAddr x .a (some .b)) loc s → lanesLater loc s → ∃ t h, exec (.ld x) s = .next t
      ∧ t = s.holdWord h ∧ h.unfinished = s.cur.act ∧ h.ready = true ∧ ∀ i, active i s → (h.accs.get i default).addr = s.laneAddr x .a (some .b) i)
    ∧ (lanesReach 1 n (s.laneAddr x .a (some .b)) loc s → lanesLater loc s → (x.long && x.c != 0) = false →
      (∀ i, active i s → (s.laneAddr x .a (some .b) i).toNat / 2 ^ 48 = 0xFFFD → (loc i).sp ≠ .scratch s.cur.blk) → ∃ t, exec (.st x) s = .next t
      ∧ t.cur = { s.cur with flow := .go } ∧ (∀ k : Loc, t.peek k 1 = s.peek k 1)
      ∧ t.me = { s.me with late := s.me.late ++ (lanesOf s.cur.act).map (fun i => { lane := some i, loc := loc i, data := toBytes n (full n .d i) }) })
    ∧ (lanesReach 0 n (s.laneAddr x .a (some .b)) loc s → s.cur.later = 0 → ∃ t, exec (.ld x) s = .next t
      ∧ onlyBeam s.cur.blk s.cur.beam s t ∧ t.cur = { s.cur with flow := .go } ∧ t.me = { s.me with v := t.me.v, ix := t.me.ix }
      ∧ lanesTook d n (old n) (x.mb 2 1 == 1) s t ∧ ixTook d n (old n) (x.mb 2 1 == 1) s t)
    ∧ (lanesReach 1 n (s.laneAddr x .a (some .b)) loc s → s.cur.later = 0 → lanesApart n loc s → ∃ t, exec (.st x) s = .next t
      ∧ t.cur = { s.cur with flow := .go } ∧ t.me.v = s.me.v ∧ lanesStored n loc (full n .d) s t)
    ∧ (∀ op, Aop.ofCode (x.mb 0 4) = some op → lanesReach 2 m (s.laneAddr x .a none) loc s → s.cur.later = 0 → lanesApart m loc s → ∃ t, exec (.atom x) s = .next t
      ∧ t.cur = { s.cur with flow := .go } ∧ lanesTook d m (old m) (x.mb 6 1 == 1) s t ∧ ixTook d m (old m) (x.mb 6 1 == 1) s t
      ∧ lanesStored m loc (fun i => aopApply op (8 * m) (old m i) (full m .b i)) s t)
    ∧ (lanesReach 2 m (s.laneAddr x .a none) loc s → s.cur.later = 0 → lanesApart m loc s → ∃ t, exec (.acas x) s = .next t
      ∧ t.cur = { s.cur with flow := .go } ∧ lanesTook d m (old m) (x.mb 6 1 == 1) s t ∧ ixTook d m (old m) (x.mb 6 1 == 1) s t
      ∧ lanesStored m loc (fun i => if old m i = full m .d i % 2 ^ (8 * m) then full m .b i else old m i) s t)
    ∧ (x.mb 2 1 = 1 → ∃ t, exec (.cvta x) s = .next t ∧ laneResult d (fun i =>
        if (s.base x .a i).toNat / 2 ^ 48 = (apOf x).sel then (s.base x .a i).setWidth 32 else 0xFFFFFFFF) s t)
    ∧ (x.mb 2 1 = 0 → ∃ t, exec (.cvta x) s = .next t ∧ pairResult d (fun i => BitVec.ofNat 64 ((apOf x).sel * 2 ^ 48 + (s.src x .a i).toNat)) s t)
    ∧ (∃ t, exec (.pref x) s = .next t ∧ t = s.flow .go)
    ∧ (∃ t, exec (.fence x) s = .next t ∧ t = s.flow .go)
    ∧ (∃ t, exec (.lmark x) s = .next t ∧ beamAndIntake s t ∧ t.me = s.me)

namespace Sys2Proof.Claims

/-- The memory and the rings are those of `u`, in which the record has been posted. -/
abbrev asPosted (u t : State) : Prop := t.host = u.host ∧ t.mem = u.mem ∧ t.rings = u.rings

/-- The lanes of `bad` taken out of a word. -/
abbrev without (bad : W32) (s : State) : State := s.setCur (fun c => { c with act := c.act &&& ~~~bad })

/-- A load word at its first issue, performed as it issues, whose active lanes all pass their checks, each in one 8-byte unit. -/
def loadChecked (n : Nat) (addr : Nat → W64) (s : State) : Prop :=
  firstIssue s ∧ s.cur.later = 0
    ∧ s.accessCause s.cur.blk s.cur.beam ((lanesOf s.cur.act).map (fun i => (i, addr i))) n 0 false = none
    ∧ ∀ i, active i s → s.splitAt s.cur.blk s.cur.beam i (addr i) n = none

/-- R161: an LD some of whose lanes (`bad`) read poisoned units, and an SLD that does: those lanes die and take no value, the other
lanes take theirs, and one CONSUMED record names the lowest dead lane's address and the lanes; the scalar stream's beam is killed. -/
def consumedErrors : Prop :=
  ∀ (s : State) (x : LaneOp) (loc : Nat → Loc) (bad : W32) (i : Nat) (d a : BitVec 5) (w : Width) (off : BitVec 14) (l : Loc),
    let n := 2 ^ x.mb 0 2
    let addr := s.laneAddr x .a (some .b)
    (loadChecked n addr s → active i s → bad.getLsbD i = true → (∀ k, k < i → bad.getLsbD k = false) →
      (∀ k, active k s → (∀ node, (loc k).sp ≠ .remote node) ∧ (∃ page, s.locate s.cur.blk s.cur.beam k (addr k) false = .ok (loc k) page) ∧ s.poisonedAt (loc k) n = bad.getLsbD k) →
      (∀ k, k < 32 → bad.getLsbD k = true → active k s) →
      ∃ t, exec (.ld x) s = .next t ∧ t.cur = { s.cur with flow := .go }
        ∧ t.me = dropLanes bad { s.me with v := t.me.v, ix := t.me.ix, watch := t.me.watch, dead := s.me.dead ||| bad }
        ∧ lanesTook x.d.toNat n (fun k => ofBytes (s.peek (loc k) n)) (x.mb 2 1 == 1) (without bad s) t
        ∧ ixTook x.d.toNat n (fun k => ofBytes (s.peek (loc k) n)) (x.mb 2 1 == 1) (without bad s) t
        ∧ asPosted (s.postConsumed s.cur.blk s.cur.beam 0 (addr i).toNat bad (some (loc i))) t)
    ∧ (let va := s.rs a + off.signExtend 64
      unasked va s → settled l w.bytes s = s → s.accessCause s.cur.blk s.cur.beam [(0, va)] w.bytes 0 true = none →
      (∃ page, s.locate s.cur.blk s.cur.beam 0 va false = .ok l page) → (∀ node, l.sp ≠ .remote node) → s.poisonedAt l w.bytes = true →
      ∃ t, exec (.sld d a w off) s = .next t ∧ t.me.exited = true ∧ t.me.lit = none ∧ t.me.regions = [] ∧ t.me.watch = []
        ∧ (∀ r, t.rs r = s.rs r) ∧ asPosted (s.postConsumed s.cur.blk s.cur.beam 1 va.toNat 1 (some l)) t)

/-- R159: an LD some of whose lanes (`mask`) meet a page fault on one page, and an SLD that does: the other lanes take their values, the
word parks for the unfinished lanes and holds the lane stream, the scalar stream parks, and one fault record is posted. -/
def pageFaultParks : Prop :=
  ∀ (s : State) (x : LaneOp) (y : LUnit) (loc : Nat → Loc) (mask : W32) (i page mp : Nat) (gpa : Option Nat) (d a : BitVec 5) (w : Width) (off : BitVec 14),
    let n := 2 ^ x.mb 0 2
    let addr := s.laneAddr x .a (some .b)
    let u := s.laneFaultPost s.cur.blk s.cur.beam (addr i).toNat mp gpa
    let seen (k : Nat) : State := if k < i then s else u
    (loadChecked n addr s → s.me.unit s.cur.unit = some y → active i s → mask.getLsbD i = true → (∀ k, k < i → mask.getLsbD k = false) →
      s.locate s.cur.blk s.cur.beam i (addr i) false = .fault page mp gpa →
      (∀ k, active k s → if mask.getLsbD k then ∃ q g, s.locate s.cur.blk s.cur.beam k (addr k) false = .fault page q g
        else (∀ node, (loc k).sp ≠ .remote node) ∧ (seen k).poisonedAt (loc k) n = false ∧ ∃ p, s.locate s.cur.blk s.cur.beam k (addr k) false = .ok (loc k) p) →
      (∀ k, k < 32 → mask.getLsbD k = true → active k s) →
      ∃ t z h, exec (.ld x) s = .next t ∧ t.cur = { s.cur with flow := .stay }
        ∧ t.me.unit s.cur.unit = some z ∧ z = { y with held := some h }
        ∧ h.unfinished = mask ∧ h.pages = [page] ∧ h.ready = false ∧ h.stream = true ∧ (∀ k, active k s → (h.accs.get k default).addr = addr k)
        ∧ lanesTook x.d.toNat n (fun k => ofBytes ((seen k).peek (loc k) n)) (x.mb 2 1 == 1) (without mask s) t
        ∧ ixTook x.d.toNat n (fun k => ofBytes ((seen k).peek (loc k) n)) (x.mb 2 1 == 1) (without mask s) t
        ∧ asPosted u t)
    ∧ (let va := s.rs a + off.signExtend 64
      unasked va s → s.accessCause s.cur.blk s.cur.beam [(0, va)] w.bytes 0 true = none →
      s.locate s.cur.blk s.cur.beam 0 va false = .fault page mp gpa → s.me.spark = .none →
      ∃ t, exec (.sld d a w off) s = .next t ∧ t.me = { s.me with spark := .fault page false, watch := t.me.watch }
        ∧ asPosted (match gpa with | some g => s.postStage2 s.cur.blk g | none => s.postFault s.cur.blk s.cur.beam 1 va.toNat mp) t)

end Sys2Proof.Claims

/-- R147 to R155, R159, R161: the memory words of the lanes: what they move, and what a consumed error and a page fault leave, in both
streams. -/
def Obligations.LaneMemoryForms : Prop := laneMemoryWords ∧ consumedErrors ∧ pageFaultParks

namespace Sys2Proof.Claims

/-- Only core `c` differs of the cores, and of it the fields that `f` lets differ; beside it only the ids given out and what
is said of the word being issued. -/
def onlyCore (c : Nat) (k : Core) (s t : State) : Prop :=
  t = { s with cores := t.cores, ids := t.ids, cur := t.cur } ∧ (∀ d, d ≠ c → t.core d = s.core d) ∧ t.core c = k

/-- The active lanes in ascending order, each with its place among them. -/
def placed (s : State) : List (Nat × Nat) := (lanesOf s.cur.act).zipIdx

/-- Engine entries `entry i`, one for each active lane in ascending order, stand at the end of the queues `qs` of the issuing core. -/
def queuedSe (qs : List Nat) (entry : Nat → SEntry) (s t : State) : Prop :=
  onlyCore (s.coreOf s.cur.blk) { s.core (s.coreOf s.cur.blk) with se := (t.core (s.coreOf s.cur.blk)).se } s t
    ∧ t.cur = { s.cur with flow := .go }
    ∧ ∀ q, (t.core (s.coreOf s.cur.blk)).se.get q [] = (s.core (s.coreOf s.cur.blk)).se.get q []
        ++ (if q ∈ qs then (placed s).map (fun p => { (entry p.1) with id := s.ids + p.2, blk := s.cur.blk, beam := s.cur.beam, lane := p.1 }) else [])

/-- Quadrant entries stand at the end of the issuing core's queue. -/
def queuedQ (es : List QEntry) (s t : State) : Prop :=
  onlyCore (s.coreOf s.cur.blk) { s.core (s.coreOf s.cur.blk) with
      quad := (s.core (s.coreOf s.cur.blk)).quad ++ es.zipIdx.map (fun p => { p.1 with id := s.ids + p.2, blk := s.cur.blk, beam := s.cur.beam }) } s t
    ∧ t.cur = { s.cur with flow := .go }

/-- The issuing core is not slaved, and its accumulator area belongs to the context of the word, which has an active lane. -/
def matrixReady (s : State) : Prop :=
  (s.core (s.coreOf s.cur.blk)).follow = none ∧ (s.core (s.coreOf s.cur.blk)).accown = some (s.ctxOf s.cur.blk) ∧ s.cur.act ≠ 0

/-- Entry `id` of a queue has moved all its rows, and is done where its engine is not `frozen` (R226). -/
def moved (c q id rows : Nat) (frozen : Bool) (t : State) : Prop :=
  ∀ x, x ∈ (t.core c).se.get q [] → x.id = id → (frozen = false → x.done = true) ∧ x.prog = rows

/-- R190, R192: the accesses of a row of a load or gather: its in-bounds elements and scale records, as (address, bytes). -/
def rowAccesses (e : SEntry) (r : Nat) : List (W64 × Nat) :=
  ((State.rowElems e r).filterMap id).map (fun p => (p.1, e.shape.elemBytes)) ++ ((State.rowScales e r).filterMap id).map (fun a => (a, 2))

/-- Every aligned 8-byte unit that the row's accesses touch can be read, at `m u` of this package, without poison. -/
def rowReadable (e : SEntry) (r : Nat) (m : Nat → Loc) (s : State) : Prop :=
  ∀ a n i, (a, n) ∈ rowAccesses e r → i < n →
    let u := (a + BitVec.ofNat 64 i).toNat / 8
    (∃ page, s.engLocate e.blk (BitVec.ofNat 64 (8 * u)) 8 false = .ok (m u) page) ∧ (∀ node, (m u).sp ≠ .remote node) ∧ s.poisonedAt (m u) 8 = false

/-- The number in the `n` bytes at `a` as the entry's block reads them. -/
def readNum (b : Nat) (m : Nat → Loc) (a : W64) (n : Nat) (s : State) : Nat :=
  ofBytes ((List.range n).map (fun i => let x := (a + BitVec.ofNat 64 i).toNat; ((s.view b (m (x / 8)) 8)[x % 8]?).getD 0))

/-- R190, R192: the code of element `i`, and of scale record `i`, of a row: what memory holds, or the value out of bounds. -/
def loadCode (e : SEntry) (r : Nat) (m : Nat → Loc) (s : State) (i : Nat) : Nat :=
  let cs := State.SEntryCoords e r i
  let p := e.shape.elemAddr cs
  if e.shape.inside cs = false then 0
  else if e.shape.width = 4 then readNum e.blk m p.1 1 s / 16 ^ p.2 % 16 else readNum e.blk m p.1 e.shape.elemBytes s
def scaleCode (e : SEntry) (r : Nat) (m : Nat → Loc) (s : State) (i : Nat) : Nat :=
  let cs := State.SEntryCoords e r (16 * i)
  if e.shape.inside cs = false then 0x7F else readNum e.blk m (e.shape.scaleAddr cs) 2 s

/-- Where row `r` of an entry's tile, and of its scale tile, lies in scratch. -/
def rowAt (e : SEntry) (r : Nat) : Nat := e.dst + r * e.shape.pitch
def scaleRowAt (e : SEntry) (r : Nat) : Nat := e.dst + e.shape.scaleOff (e.kind == .gather) + r * e.shape.scalePitch

/-- R195: row `r` of a load or gather is in scratch, padded with zeros to its pitch, with its scale records; every other byte stands. -/
def rowLoaded (e : SEntry) (r : Nat) (m : Nat → Loc) (s t : State) : Prop :=
  let h := e.shape
  t.peek { sp := .scratch e.blk, addr := rowAt e r } h.pitch = State.packBytes h.width h.pitch ((List.range (h.bx h.rowDim)).map (loadCode e r m s))
    ∧ (0 < h.recs → t.peek { sp := .scratch e.blk, addr := scaleRowAt e r } h.scalePitch = State.packBytes 16 h.scalePitch ((List.range h.recs).map (scaleCode e r m s)))
    ∧ ∀ l : Loc, (l.sp ≠ .scratch e.blk ∨ l.addr < rowAt e r ∨ rowAt e r + h.pitch ≤ l.addr) →
        (h.recs = 0 ∨ l.sp ≠ .scratch e.blk ∨ l.addr < scaleRowAt e r ∨ scaleRowAt e r + h.scalePitch ≤ l.addr) → t.peek l 1 = s.peek l 1

/-- The codes that row `r` of a store holds in scratch, and those of its scale records. -/
def rowCodes (e : SEntry) (r : Nat) (s : State) : List Nat :=
  State.unpackCodes e.shape.width (e.shape.bx e.shape.rowDim) (ofBytes (s.peek { sp := .scratch e.blk, addr := rowAt e r } e.shape.rowBytes))
def rowScaleCodes (e : SEntry) (r : Nat) (s : State) : List Nat :=
  State.unpackCodes 16 e.shape.recs (ofBytes (s.peek { sp := .scratch e.blk, addr := scaleRowAt e r } (2 * e.shape.recs)))

/-- What a list of stores leaves at the byte of an address: that of the last store that covers it. -/
def lastByte (ws : List State.RowStore) (y : Nat) : Option Byte :=
  ws.foldl (fun o w => (List.range w.2.1).foldl (fun o i => if (w.1 + BitVec.ofNat 64 i).toNat = y then some (BitVec.ofNat 8 (w.2.2 / 256 ^ i)) else o) o) none

/-- The aligned 8-byte units that the stores touch can be written, unit `u` at `m u` of this package, none gated and none with a log
entry due, and no two of them overlap. -/
def storesReach (b : Nat) (ws : List State.RowStore) (m : Nat → Loc) (s : State) : Prop :=
  (∀ y x, lastByte ws y = some x →
    (∀ node, (m (y / 8)).sp ≠ .remote node) ∧ s.gated b (m (y / 8)) = false
    ∧ ∀ o n, 0 < n → o + n ≤ 8 → ∃ page, (∀ t base z, page = some (t, base, z) → (s.tenant t).dlbase = 0 ∨ (s.tenant t).dirty.contains base = true)
        ∧ s.engLocate b (BitVec.ofNat 64 (8 * (y / 8) + o)) n true = .ok { (m (y / 8)) with addr := (m (y / 8)).addr + o } page)
  ∧ ∀ y x z w, lastByte ws y = some x → lastByte ws z = some w → y / 8 ≠ z / 8 →
      (m (y / 8)).sp ≠ (m (z / 8)).sp ∨ (m (y / 8)).addr + 8 ≤ (m (z / 8)).addr ∨ (m (z / 8)).addr + 8 ≤ (m (y / 8)).addr

/-- R195: the bytes of the stores are in memory, and every other byte stands. -/
def rowStored (ws : List State.RowStore) (m : Nat → Loc) (s t : State) : Prop :=
  let at_ (y : Nat) : Loc := { (m (y / 8)) with addr := (m (y / 8)).addr + y % 8 }
  (∀ y x, lastByte ws y = some x → t.peek (at_ y) 1 = [x])
    ∧ ∀ l : Loc, (∀ y x, lastByte ws y = some x → l ≠ at_ y) → t.peek l 1 = s.peek l 1

/-- Queue `q` of core `c` has asked for nothing of the row that its entry moves, and none of the row has been read or written. -/
def rowUntouched (c q : Nat) (e : SEntry) (s : State) : Prop :=
  e.got = [] ∧ e.put = 0 ∧ e.out = [] ∧ ∀ r, r ∈ s.fab.reqs → r.2.who ≠ .engine c q

/-- The eligible entry of queue `q` has begun, and no page stalls it. -/
def goesOn (c q : Nat) (e : SEntry) (s : State) : Prop := s.eligible c q = some e ∧ e.started = true ∧ e.stall = none

/-- The core whose accepted updates a delivery of `n` bytes joins, at the end. -/
def delivered (blk beam off n : Nat) (s t : State) : Prop :=
  (t.core (s.coreOf blk)).boPend = (s.core (s.coreOf blk)).boPend ++ [{ blk := blk, beam := beam, off := off, op := .deliver n }]

/-- The entries of a quadrant queue after `f` was applied to entry `id`: what is completed at the head has left. -/
def quadrantAfter (c id : Nat) (f : QEntry → QEntry) (s t : State) : Prop :=
  (t.core c).quad = popQuad s.heldQ ((s.core c).quad.map (fun e => if e.id = id then f e else e))

end Sys2Proof.Claims

/-- R194 to R196: SECOPY, SEGATH and SEFENCE: where every active lane passes its checks and the queues have room, one entry
for each active lane in ascending order; where there is no room the word waits with no effect. -/
def Obligations.EngineWordsEnqueue : Prop :=
  ∀ (s : State) (x : LaneOp),
    let c := s.coreOf s.cur.blk
    let q := x.mb 0 2
    let ok (g : Bool) : Prop := ∀ i, active i s → s.copyFail g (s.src x .a i).toNat (s.src x .b i).toNat (s.src x .c i).toNat (s.crdOf x i) = none
    let room (p : Nat) : Prop := ((s.core c).se.get p []).length + popc s.cur.act ≤ 32
    let h (i : Nat) : Shape := Shape.ofBytes (s.shapeAt (s.src x .a i).toNat)
    let e (i : Nat) : SEntry := { shape := h i, crd := s.crdOf x i, dst := (s.src x .b i).toNat, bo := (s.src x .c i).toNat }
    let bo (i : Nat) : Nat := (s.src x .d i).toNat
    let ix (i g : Nat) : Int := (BitVec.ofNat 32 (s.myBlock.scratch.num ((h i).glist + 4 * g) 4)).toInt
    (ok false → room q → ∃ t, exec (.secopy x) s = .next t ∧ queuedSe [q] (fun i => { (e i) with kind := if x.mb 2 1 = 1 then SeKind.store else SeKind.load }) s t)
    ∧ (ok false → ¬ room q → ∃ t, exec (.secopy x) s = .next t ∧ t = s.flow .stay)
    ∧ (ok true → room q → ∃ t, exec (.segath x) s = .next t ∧ queuedSe [q]
        (fun i => { (e i) with kind := .gather, index := (List.range (h i).gcount).map (ix i) }) s t)
    ∧ ((x.mb 4 1 = 1 → ∀ i, active i s → bo i % 16 = 0 ∧ bo i + 16 ≤ s.myBlock.scratchSize ∧ s.myBlock.scratch.num (bo i + 12) 4 = 0) →
      (∀ p, p < 4 → (x.mb 0 4).testBit p = true → room p) →
      ∃ t, exec (.sefence x) s = .next t ∧ queuedSe ((List.range 4).filter (fun p => (x.mb 0 4).testBit p))
        (fun i => { kind := .fence, bo := if x.mb 4 1 = 1 then bo i else 0, hasBo := x.mb 4 1 == 1, mask := x.mb 0 4 }) s t)

/-- R195: what moving one row does, for a load or gather and for a store; the stores of a row of elements of 8 bits or more are its
in-bounds elements, each at its address, then its scale records. -/
def Sys2Proof.Claims.engineRowsMove : Prop :=
  ∀ (s : State) (c q r : Nat) (e : SEntry) (m : Nat → Loc) (ws : List State.RowStore),
    ((e.kind = .load ∨ e.kind = .gather) → rowUntouched c q e s → r < e.shape.rows (e.kind == .gather) → rowReadable e r m s →
      ∃ t, s.moveRow c q e r = .ok t ∧ rowLoaded e r m s t)
    ∧ (e.kind = .store → rowUntouched c q e s → s.poisonedAt { sp := .scratch e.blk, addr := rowAt e r } e.shape.rowBytes = false →
      (e.shape.recs = 0 ∨ s.poisonedAt { sp := .scratch e.blk, addr := scaleRowAt e r } (2 * e.shape.recs) = false) →
      s.rowStores c q e r (rowCodes e r s) (rowScaleCodes e r s) = .ok (ws, s) → storesReach e.blk ws m s →
      ∃ t, s.moveRow c q e r = .ok t ∧ rowStored ws m s t)
    ∧ (e.shape.width ≠ 4 → s.rowStores c q e r (rowCodes e r s) (rowScaleCodes e r s) = .ok (
        ((State.rowElems e r).zip (rowCodes e r s)).filterMap (fun x => x.1.map (fun p => (p.1, e.shape.elemBytes, x.2)))
          ++ ((State.rowScales e r).zip (rowScaleCodes e r s)).filterMap (fun x => x.1.map (fun a => (a, 2, x.2))), s))

/-- R195, R197, R199: an entry starts, moves its rows in order and has moved them all with its last, whether it goes on or resumes after a
fault, of a frozen engine no further than the row it stands in (R226); a row may be moved in parts, and those that read it store nothing
(R21, R213; log entry 20, DESIGN CHOICE); a page that is not
resident stalls it at its row; a moved entry leaves its queue and completes at its barrier object; a fence
that heads every queue it names arrives, unless the debugger or a SHUTTER stops it. -/
def Obligations.EngineEntriesMove : Prop :=
  engineRowsMove ∧
  ∀ (s u : State) (c q : Nat) (e : SEntry),
    let rows := e.shape.rows (e.kind == .gather)
    let next : State := (u.forget (.engine c q)).setEntry c q e.id (fun x => { x with prog := e.prog + 1, got := [], put := 0, out := [], stall := none })
    (s.eligible c q = some e → e.started = false → e.stall = none →
      exec (.seEntryStart c q) s = exec (.seEntryStart c q) ((s.setEntry c q e.id (fun x => { x with started := true })).tapEngine e q 0))
    ∧ (goesOn c q e s → e.prog + 1 < rows → rows ≤ 4096 → s.moveRow c q e e.prog = .ok u →
      exec (.seEntryStart c q) s = exec (.seEntryStart c q) next)
    ∧ (goesOn c q e s → e.prog + 1 = rows → s.moveRow c q e e.prog = .ok u →
      ∃ t, exec (.seEntryStart c q) s = .next t ∧ moved c q e.id rows (s.frozenBlock e.blk) t ∧ ∀ l, t.peek l 1 = u.peek l 1)
    ∧ (∀ p l page, s.eligible c q = some e → e.stall = some p → s.xlat (s.ctxOf e.blk) (s.tenantOf e.blk) (p * 65536) false = .ok l page →
      e.prog + 1 = rows → s.moveRow c q e e.prog = .ok u →
      ∃ t, exec (.seFaultResume c q) s = .next t ∧ moved c q e.id rows (s.frozenBlock e.blk) t ∧ ∀ l, t.peek l 1 = u.peek l 1)
    ∧ (∀ n x, goesOn c q e s → e.kind ≠ .store → x ∈ State.loadUnits e e.prog → e.got.find x.1 = none →
      ∀ l, (s.rowPart c q n).peek l 1 = s.peek l 1)
    ∧ (∀ a n page mp, goesOn c q e s → (e.kind = .load ∨ e.kind = .gather) → rowUntouched c q e s → e.prog < rows → (rowAccesses e e.prog).head? = some (a, n + 1) →
      s.engLocate e.blk (BitVec.ofNat 64 (8 * (a.toNat / 8))) 8 false = .fault page mp none →
      ∃ t, exec (.seEntryStart c q) s = .next t ∧ (∀ x, x ∈ (t.core c).se.get q [] → x.id = e.id → x.stall = some page)
        ∧ ∀ x, t.peek { sp := .scratch e.blk, addr := x } 1 = s.peek { sp := .scratch e.blk, addr := x } 1)
    ∧ (q < 4 → ((s.core c).se.get q []).find? (fun x => x.done) = some e → s.boPoisoned e.blk e.bo = false →
      ∃ t, exec (.entryCompletion c q) s = .next t ∧ (t.core c).se.get q [] = ((s.core c).se.get q []).filter (fun x => x.id != e.id)
        ∧ delivered e.blk e.beam e.bo (e.shape.rows (e.kind == .gather) * e.shape.rowCount) s t ∧ ∀ l, t.peek l 1 = s.peek l 1)
    ∧ (∀ r, (s.core c).se.get q [] = e :: r → e.kind = .fence → e.hasBo = true → (∀ p, p < 4 → e.mask.testBit p = true → s.heldEntry p e = false) → s.frozenBlock e.blk = false → s.quietBlock e.blk = false →
      q < 4 → e.mask.testBit q = true → s.boPoisoned e.blk e.bo = false →
      (∀ p, p < 4 → e.mask.testBit p = true → ∃ f u, (s.core c).se.get p [] = f :: u ∧ f.id = e.id) →
      ∃ t, exec (.sefenceArrive c q) s = .next t ∧ delivered e.blk e.beam e.bo 0 s t
        ∧ ∀ p, p < 4 → e.mask.testBit p = true → (t.core c).se.get p [] = ((s.core c).se.get p []).filter (fun x => x.id != e.id))

/-- R200 to R209: the matrix words: on a core that is not slaved, in the context that owns its accumulators, with every
active lane past its checks and room in the queue, one entry a lane; MWAIT waits for what its beam enqueued before. -/
def Obligations.MatrixWordsEnqueue : Prop :=
  ∀ (s : State) (x : LaneOp), matrixReady s →
    let k := s.core (s.coreOf s.cur.blk)
    let v (g : Field) (i : Nat) : Nat := (s.src x g i).toNat
    let room : Prop := k.quad.length + popc s.cur.act ≤ 16
    let each (f : Nat → QEntry) : List QEntry := (lanesOf s.cur.act).map f
    let sc := x.mb 3 1 == 1
    let mine (e : QEntry) : Bool := !e.done && e.blk = s.cur.blk && e.beam = s.cur.beam
    (room → (∀ i, active i s → s.mldsFail (x.mb 0 3) sc (v .d i) (v .a i) (v .b i) = none) → ∃ t, exec (.mlds x) s = .next t
      ∧ queuedQ (each (fun i => { kind := .mlds, lane := i, fmt := x.mb 0 3, sc := sc, size := v .a i, off := v .d i, soff := v .b i })) s t)
    ∧ (k.quad.length < 16 → ∃ t, exec (.mflip x) s = .next t ∧ ∃ i, active i s ∧ queuedQ [{ kind := .mflip, lane := i }] s t)
    ∧ (room → (∀ i, active i s → s.mstrFail (x.mb 0 3) sc (v .d i) (v .a i) (v .b i) (v .c i) = none) → ∃ t, exec (.mstr x) s = .next t
      ∧ queuedQ (each (fun i => { kind := .mstr, lane := i, fmt := x.mb 0 3, sc := sc, acc := x.mb 4 1 == 1, size := v .a i, off := v .d i, soff := v .b i, tile := v .c i })) s t)
    ∧ (room → (∀ i, active i s → s.mdrainFail (x.mb 0 2) (v .d i) (v .a i) (v .b i) = none) → ∃ t, exec (.mdrain x) s = .next t
      ∧ queuedQ (each (fun i => { kind := .mdrain, lane := i, fmt := x.mb 0 2, int := x.mb 2 1 == 1, rel := x.mb 3 1 == 1, off := v .a i, bo := v .b i, tile := v .d i })) s t)
    ∧ (room → (∀ i, active i s → s.accFail 6 (v .d i) = none) → ∃ t, exec (.mzero x) s = .next t
      ∧ queuedQ (each (fun i => { kind := .mzero, lane := i, tile := v .d i })) s t)
    ∧ (room → (∀ i, active i s → s.fuseOk (s.src x .d i) = true) → ∃ t, exec (.mfuse x) s = .next t
      ∧ queuedQ (each (fun i => { kind := .mfuse, lane := i, mask := v .d i })) s t)
    ∧ (k.quad.any mine = false → ∃ t, exec (.mwait x) s = .next t ∧ t = s.flow .go)
    ∧ (∀ y, k.quad.any mine = true → s.me.unit s.cur.unit = some y → ∃ t, exec (.mwait x) s = .next t
      ∧ onlyBeam s.cur.blk s.cur.beam s t ∧ t.cur = { s.cur with flow := .stay } ∧ t.me = s.me.setUnit s.cur.unit (some { y with mwait := some s.ids }))

/-- R203 to R208, R211, R214: what the entries of a quadrant that leads no fusion do: loads fill the shadow plane, a flip
exchanges the planes, an MSTR streams a row into its tile, a drain writes its tile, MZERO clears one. -/
def Sys2Proof.Claims.quadrantEntriesAct : Prop :=
  ∀ (s : State) (c : Nat) (e : QEntry), (s.core c).lead = 0 →
    let base := 1024 * s.tileOf e.blk e.tile
    let old (w : Nat) : W32 := (s.core c).acc.get w 0
    (∀ rows, s.nextQ c (fun _ x => x.kind = .mlds && x.started) = some e → s.loadRows e 32 0 [] = .ok rows →
      ∃ t, exec (.mldsComplete c) s = .next t ∧ (t.core c).shadow = State.planePart e rows 0 0 ∧ (t.core c).active = (s.core c).active
        ∧ quadrantAfter c e.id (fun x => { x with done := true }) s t)
    ∧ (s.nextQ c (fun b x => x.kind = .mflip && b.all (fun y => y.kind != .mlds && y.kind != .mflip && y.kind != .mfuse && (y.kind != .mstr || State.streamed y))) = some e →
      ∃ t, exec (.mflipEffect c) s = .next t ∧ (t.core c).active = (s.core c).shadow ∧ (t.core c).shadow = (s.core c).active
        ∧ (t.core c).acc = (s.core c).acc ∧ (∀ d, d ≠ c → t.core d = s.core d) ∧ quadrantAfter c e.id (fun x => { x with started := true, done := true }) s t)
    ∧ (s.nextQ c State.startsNow = some e → e.kind ≠ .mdrain → (e.kind = .mstr → (s.core c).active.loaded = true) →
      ∃ t, exec (.quadrantEntryStart c) s = .next t ∧ (t.core c).acc = (s.core c).acc ∧ quadrantAfter c e.id (fun x => { x with started := true }) s t)
    ∧ (s.nextQ c State.startsNow = some e → e.kind = .mdrain → (∀ w, w / 1024 = s.tileOf e.blk e.tile → (s.core c).accPoison.contains w = false) →
      ∃ t, exec (.quadrantEntryStart c) s = .next t ∧ quadrantAfter c e.id (fun x => { x with started := true, row := 32 }) s t
        ∧ (∀ m, m < 32 → t.peek { sp := .scratch e.blk, addr := e.off + 128 * m } (4 * drainWidth e.fmt)
            = State.packBytes (drainWidth e.fmt) (4 * drainWidth e.fmt) ((List.range 32).map (fun n => drainCode e.fmt e.int (old (base + 32 * m + n)))))
        ∧ ∀ l : Loc, l.sp ≠ .scratch e.blk ∨ l.addr < e.off ∨ e.off + 4096 ≤ l.addr → t.peek l 1 = s.peek l 1)
    ∧ (∀ xs, s.nextQ c State.startsNow = none → s.nextQ c (fun _ x => x.kind = .mstr && x.started && x.row < x.size) = some e →
      e.sc = false → e.acc = false → (s.core c).active.poisoned = false →
      s.tileRow e.blk (e.off + e.row * mPitch e.fmt (s.core c).active.k) (s.core c).active.k (mWidth e.fmt) = some xs →
      ∃ t, exec (.quadrantEntryStart c) s = .next t ∧ quadrantAfter c e.id (fun x => { x with row := e.row + 1 }) s t
        ∧ (∀ n, n < 32 → (t.core c).acc.get (base + 32 * e.row + n) 0 = s.mstrWord c (s.core c).active e xs [] n (old (base + 32 * e.row + n)))
        ∧ (∀ w, w / 32 ≠ base / 32 + e.row → (t.core c).acc.get w 0 = old w) ∧ s.tileOf e.blk e.tile ∈ (t.core c).acclive)
    ∧ (s.nextQ c (fun _ x => x.kind = .mstr && State.streamed x) = some e →
      ∃ t, exec (.mstrComplete c) s = .next t ∧ (t.core c).acc = (s.core c).acc ∧ quadrantAfter c e.id (fun x => { x with done := true }) s t)
    ∧ (s.nextQ c (fun _ x => x.kind = .mzero && x.started) = some e →
      ∃ t, exec (.mzeroComplete c) s = .next t ∧ (∀ w, (t.core c).acc.get w 0 = if w / 1024 = s.tileOf e.blk e.tile then 0 else old w)
        ∧ s.tileOf e.blk e.tile ∈ (t.core c).acclive ∧ quadrantAfter c e.id (fun x => { x with done := true }) s t)
    ∧ (s.nextQ c (fun b x => x.kind = .mdrain && x.row = 32 && b.isEmpty) = some e → s.boPoisoned e.blk e.bo = false →
      ∃ t, exec (.entryCompletion c 4) s = .next t ∧ delivered e.blk e.beam e.bo (128 * drainWidth e.fmt) s t)

/-- R207, R208, R211: MWAIT's unit goes on once what it waits for is complete; a fusion gives its followers to the leader, and
a mask of the leader alone ends one; the exchange of an accumulator area keeps the old owner's live tiles in its images. -/
def Sys2Proof.Claims.quadrantOwnership : Prop :=
  ∀ (s : State) (c : Nat) (e : QEntry),
    (∀ b j y n, s.onCore b = true → (s.block b).halt = none → (s.beamAt b j).lit = some y → y.mwait = some n →
      (s.core (s.coreOf b)).quad.any (fun x => !x.done && x.blk = b && x.beam = j && x.id < n) = false →
      ∃ t, exec (.mwaitWake b j) s = .next t ∧ (t.beamAt b j).lit = some { y with mwait := none, pc := y.pc + 1 } ∧ (t.beamAt b j).v = (s.beamAt b j).v)
    ∧ (s.nextQ c (fun b x => x.kind = .mfuse && b.isEmpty) = some e → e.mask = 2 ^ (c % 4) →
      ∃ t, exec (.mfuseEffect c) s = .next t ∧ (t.core c).lead = 0 ∧ ∀ d, (s.core d).follow = some c → (t.core d).follow = none)
    ∧ (∀ f, s.nextQ c (fun b x => x.kind = .mfuse && b.isEmpty) = some e → State.followers c e.mask = [f] → e.mask ≠ 2 ^ (c % 4) →
      (∀ x, x ∈ (s.core f).quad → x.done = true ∨ e.id ≤ x.id) →
      (s.core f).lead = 0 → (s.core f).follow = none → (s.core f).accown = some (s.ctxOf e.blk) →
      ∃ t, exec (.mfuseEffect c) s = .next t ∧ (t.core c).lead = e.mask ∧ (t.core c).leadBlk = e.blk ∧ (t.core f).follow = some c)
    ∧ (∀ ctx o, (s.core c).accReq = some ctx → (s.core c).accown = some o → o ≠ ctx → s.ownerBusy c = false →
      ∃ t, exec (.accExchange c ctx) s = .next t ∧ (t.core c).accown = some ctx ∧ (t.core c).accReq = none
        ∧ ((∀ k, k ∈ s.blocks → k.2.core = c → s.ctxOf k.1 = ctx → k.2.img.spilled = []) → (t.core c).acclive = [] ∧ (t.core c).acc = [])
        ∧ ∀ b k v i, s.blocks.find b = some k → k.core = c → s.ctxOf b = o → k.ended = false → v < 4 * k.accg →
            (s.core c).acclive.contains (s.tileOf b v) = true → i < 1024 →
            (t.block b).img.spill.get (1024 * v + i) 0 = (s.core c).acc.get (1024 * s.tileOf b v + i) 0)

/-- R203 to R214: what the entries of a quadrant do, waits for them, fusions and the exchange of an accumulator area. -/
def Obligations.QuadrantEvents : Prop := quadrantEntriesAct ∧ quadrantOwnership

namespace Sys2Proof.Claims

/-- Only the Lantern of the word's die differs: its run goes on at the `k`-th word from here, one word more is counted, and
of its registers none changes but those that `g` says. -/
def lanternGoes (k : Nat) (g : Tab W32) (s t : State) : Prop :=
  t = { s with dies := t.dies } ∧ (∀ d, d ≠ s.cur.die → t.die d = s.die d)
    ∧ t.die s.cur.die = { s.die s.cur.die with lan := { s.lan with g := g, wordIx := s.lan.wordIx + k, words := s.lan.words + 1 } }

/-- A Lantern word whose result is `x` in register `d`. -/
def lanternResult (d : BitVec 3) (x : W32) (s t : State) : Prop :=
  lanternGoes 1 t.lan.g s t ∧ ∀ r, t.rg r = if r = d then x else s.rg r

/-- A Lantern word that makes object `o` of filter `r` `obj`; every other object and filter stands, and the run goes on. -/
def lanternObject (r : Nat) (x : Filter) (o : BitVec 12) (obj : LObj) (s t : State) : Prop :=
  t = { s with filters := t.filters, dies := t.dies } ∧ t.lan = { s.lan with wordIx := s.lan.wordIx + 1, words := s.lan.words + 1 }
    ∧ (∀ q, q ≠ r → t.filters.find q = s.filters.find q)
    ∧ ∃ y, t.filters.find r = some y ∧ y = { x with objs := y.objs } ∧ y.objs.get o.toNat {} = obj
      ∧ ∀ p, p ≠ o.toNat → y.objs.get p {} = x.objs.get p {}

end Sys2Proof.Claims

/-- R288: the words of the Lantern on its eight registers, the event's fields, skips and the end of a run. -/
def Sys2Proof.Claims.lanternRegisterWords : Prop :=
  ∀ (s : State) (d a b : BitVec 3) (k : BitVec 20) (m : BitVec 24) (f n : BitVec 6) (c : Cond),
    let x := s.rg a
    let y := s.rg b
    let z : W32 := k.setWidth 32
    let shl (x y : W32) : W32 := if 32 ≤ y.toNat then 0 else x <<< y.toNat
    let shr (x y : W32) : W32 := if 32 ≤ y.toNat then 0 else x >>> y.toNat
    let low (x y : W32) : W32 := if x.toNat ≤ y.toNat then x else y
    let high (x y : W32) : W32 := if x.toNat ≤ y.toNat then y else x
    (∃ t, exec (.glde d f) s = .next t ∧ lanternResult d ((s.lan.evt[f.toNat]?).getD 0) s t)
    ∧ (∃ t, exec (.gldc d m) s = .next t ∧ lanternResult d (m.setWidth 32) s t)
    ∧ (∃ t, exec (.gadd d a b) s = .next t ∧ lanternResult d (x + y) s t) ∧ (∃ t, exec (.gaddImm d a k) s = .next t ∧ lanternResult d (x + z) s t)
    ∧ (∃ t, exec (.gsub d a b) s = .next t ∧ lanternResult d (x - y) s t) ∧ (∃ t, exec (.gsubImm d a k) s = .next t ∧ lanternResult d (x - z) s t)
    ∧ (∃ t, exec (.gand d a b) s = .next t ∧ lanternResult d (x &&& y) s t) ∧ (∃ t, exec (.gandImm d a k) s = .next t ∧ lanternResult d (x &&& z) s t)
    ∧ (∃ t, exec (.gor d a b) s = .next t ∧ lanternResult d (x ||| y) s t) ∧ (∃ t, exec (.gorImm d a k) s = .next t ∧ lanternResult d (x ||| z) s t)
    ∧ (∃ t, exec (.gshl d a b) s = .next t ∧ lanternResult d (shl x y) s t) ∧ (∃ t, exec (.gshlImm d a k) s = .next t ∧ lanternResult d (shl x z) s t)
    ∧ (∃ t, exec (.gshr d a b) s = .next t ∧ lanternResult d (shr x y) s t) ∧ (∃ t, exec (.gshrImm d a k) s = .next t ∧ lanternResult d (shr x z) s t)
    ∧ (∃ t, exec (.gmin d a b) s = .next t ∧ lanternResult d (low x y) s t) ∧ (∃ t, exec (.gminImm d a k) s = .next t ∧ lanternResult d (low x z) s t)
    ∧ (∃ t, exec (.gmax d a b) s = .next t ∧ lanternResult d (high x y) s t) ∧ (∃ t, exec (.gmaxImm d a k) s = .next t ∧ lanternResult d (high x z) s t)
    ∧ (∃ t, exec (.gskip c a b n) s = .next t ∧ lanternGoes (if condHolds32 c x y then 1 + n.toNat else 1) s.lan.g s t)
    ∧ (∀ r, s.lan.run = some r → ∃ t, exec .gend s = .next t ∧ t.lan.run = none ∧ t.filters = s.filters
      ∧ ∀ q, t.lan.spent.get q 0 = if q = (s.filters.get r default).tenant ∧ q ≠ 0 then s.lan.spent.get q 0 + (s.lan.words + 1) else s.lan.spent.get q 0)

/-- R289, R290: the words of the Lantern on an object that the running filter declares. -/
def Sys2Proof.Claims.lanternObjectWords : Prop :=
  ∀ (s : State) (a b : BitVec 3) (o : BitVec 12) (r : Nat) (f : Filter) (d : Decl),
    s.lan.run = some r → s.filters.find r = some f → f.decls[o.toNat]? = some d →
    let x := s.rg a
    let y := s.rg b
    let old := f.objs.get o.toNat {}
    let sum (k : Nat) : W32 := BitVec.ofNat 32 (min (2 ^ 32 - 1) ((old.cells.get k 0).toNat + y.toNat))
    (∃ t, exec (.ghist a b o) s = .next t ∧ ∃ cells, lanternObject r f o { old with cells := cells } s t
      ∧ ∀ k, cells.get k 0 = if k = d.bin x then sum k else old.cells.get k 0)
    ∧ (∃ t, exec (.gsketch a b o) s = .next t ∧ ∃ cells, lanternObject r f o { old with cells := cells } s t
      ∧ ∀ k, cells.get k 0 = if k < 1024 ∧ k = sketchCell (k / 256) x then sum k else old.cells.get k 0)
    ∧ (∃ t, exec (.gcount a o) s = .next t ∧ lanternObject r f o { old with total := old.total + x.setWidth 64 } s t)
    ∧ (∃ t, exec (.gsample a b o) s = .next t ∧ ∃ cells, lanternObject r f o { old with cells := cells, total := old.total + 1 } s t
      ∧ ∀ k, cells.get k 0 = if k / 4 = old.total.toNat % 2 ^ d.mode then
          (if k % 4 = 0 then x else if k % 4 = 1 then y else if k % 4 = 2 then s.evField 1 else s.evField 2) else old.cells.get k 0)
    ∧ (old.armed = false ∨ (old.fires ≠ 0 ∧ (s.evTime - old.last).toNat < d.param.toNat) →
      ∃ t, exec (.gtrig a b o) s = .next t ∧ lanternObject r f o { old with suppressed := old.suppressed + 1 } s t)
    ∧ (old.armed = true → (old.fires = 0 ∨ d.param.toNat ≤ (s.evTime - old.last).toNat) →
      ∃ t, exec (.gtrig a b o) s = .next t ∧ ∃ y, t.filters.find r = some y
        ∧ y.objs.get o.toNat {} = { old with last := s.evTime, fires := old.fires + 1, armed := d.mode % 2 == 0 })

/-- R288 to R290: every word of the Lantern, on its registers and on its objects. -/
def Obligations.LanternWords : Prop := lanternRegisterWords ∧ lanternObjectWords

/-- R82, R132, R146, R160, R178: the events of a beam's lane stream and of its waits: a region starts in the lit slot, a
fragment is taken up, a record is cleared, what waits for a page is ready when it translates, a claim that fits is granted. That a
fragment's taking up is its no longer being queued, and that FAULT_REPLAY makes a word and an access ready, which then issue again in turn,
is the model's choice (log entry 35, DEDUCED). -/
def Sys2Proof.Claims.beamEvents : Prop :=
  ∀ (s : State) (b j : Nat), s.onCore b = true → (s.block b).halt = none →
    let x := s.beamAt b j
    (∀ r rs, x.regions = r :: rs → x.exited = false → x.running = false → ~~~x.dead &&& ~~~x.retired ≠ 0 →
      ∃ t, exec (.regionStart b j) s = .next t ∧ onlyBeam b j s t
        ∧ t.beamAt b j = { x with running := true, lit := some { pc := r.start, mask := ~~~x.dead &&& ~~~x.retired, token := 0 }, shade := none })
    ∧ (∀ r rs, x.regions = r :: rs → x.exited = false → x.running = false → ~~~x.dead &&& ~~~x.retired = 0 →
      ∃ t, exec (.regionStart b j) s = .next t ∧ onlyBeam b j s t ∧ t.beamAt b j = { x with regions := rs })
    ∧ (∀ r y, x.frags.find r = some y → ∃ t, exec (.fragmentFirstIssue b j r) s = .next t ∧ onlyBeam b j s t
      ∧ (t.beamAt b j).frags.find r = some { y with queued := false } ∧ ∀ q, q ≠ r → (t.beamAt b j).frags.find q = x.frags.find q)
    ∧ (∀ r l page, x.clears.contains r = true → (∀ node, l.sp ≠ .remote node) → noLogDue page s →
      s.gated b l = false → s.asked (.lane b j 1000 r) 2 (s.recordVa b j r + 10) 1 = none →
      s.taskView (s.block b).task (s.recordVa b j r + 10) (s.xlat (s.ctxOf b) (s.tenantOf b) (s.recordVa b j r + 10) true) = .ok l page →
      ∃ t, exec (.fragmentRecordClear b j r) s = .next t ∧ (t.beamAt b j).clears = x.clears.filter (· != r) ∧ t.peek l 1 = [0]
        ∧ ∀ k : Loc, (k.sp ≠ l.sp ∨ k.addr ≠ l.addr) → t.peek k 1 = s.peek k 1)
    ∧ (∀ p, x.spark = .fault p false → s.pagesReady b [p] = true → ∃ t, exec (.faultReplay b j) s = .next t ∧ onlyBeam b j s t
      ∧ (t.beamAt b j).spark = .fault p true ∧ (t.beamAt b j).spc = x.spc ∧ (t.beamAt b j).v = x.v)
    ∧ (∀ y h, x.lit = some y → y.held = some h → h.ready = false → s.heldReady b j h = true →
      ∃ t, exec (.faultReplay b j) s = .next t ∧ onlyBeam b j s t ∧ (t.beamAt b j).lit = some { y with held := some { h with ready := true } })
    ∧ (∀ age n, State.parkedClaims (s.block b) = [(age, j, n)] → n ≤ (s.block b).reserve → ∃ t, exec (.claimGrant b) s = .next t
      ∧ (t.beamAt b j).units = x.units + n ∧ (t.beamAt b j).spark = .none ∧ (t.beamAt b j).spc = x.spc + 1 ∧ beamAndIntake { s with cur := { s.cur with blk := b, beam := j } } { t with cur := { t.cur with blk := b, beam := j } })

/-- R168: the recheck of a core, due 1 µs after the last, on which one overflowed watch has been signalled: a line that differs from its snapshot is a
hit; one that equals it is a hit too, but at most once in 100 us; one that holds poison kills the beam (log entry 62, DEDUCED). -/
def Sys2Proof.Claims.overflowRecheck : Prop :=
  ∀ (s : State) (c b j : Nat) (k : Block) (w : WatchE), s.onCoreOf c = [(b, k)] → s.blocks.find b = some k → k.beams = [(j, s.beamAt b j)] →
    (s.beamAt b j).watch = [w] → w.ovf = true → w.signalled = true → (∀ node, w.loc.sp ≠ .remote node) → s.recheckDue c 0 = true →
    (s.poisonedAt w.loc 64 = true → ∃ t, exec (.watchOverflowRecheck c) s = .next t ∧ (t.beamAt b j).exited = true ∧ (t.beamAt b j).watch = [])
    ∧ (s.poisonedAt w.loc 64 = false → s.peek w.loc 64 ≠ w.snap ∨ (match (s.beamAt b j).overWake with | some u => u + 10000 ≤ s.now | none => True) →
      ∃ t, exec (.watchOverflowRecheck c) s = .next t ∧ (t.beamAt b j).overWake = some s.now
        ∧ ∃ v, (t.beamAt b j).watch = [v] ∧ v.loc = w.loc ∧ v.hit = true ∧ v.signalled = false)
    ∧ (∀ u, s.poisonedAt w.loc 64 = false → s.peek w.loc 64 = w.snap → (s.beamAt b j).overWake = some u → s.now < u + 10000 →
      ∃ t, exec (.watchOverflowRecheck c) s = .next t ∧ (t.beamAt b j).watch = [w] ∧ (t.beamAt b j).overWake = some u)

/-- R82, R132, R146, R160, R168, R178: the events of a beam's streams and of overflowed watches. -/
def Obligations.BeamAndWatchEvents : Prop := beamEvents ∧ overflowRecheck

/-- R41, R18, R219, R234: a block whose beams have all exited and whose entries are done, which no fusion holds and to whose scratch no
other block's access is still to be performed, retires, with its late stores performed (R84), whether or not a beam holds a clear of a fragment record (that it does not wait for
one is the model's choice: log entry 26, DESIGN CHOICE); one whose trap no handler takes is terminated and counted so, or left to its debugger. -/
def Sys2Proof.Claims.blocksEnd : Prop :=
  ∀ (s : State) (b : Nat) (h : Halt), s.onCore b = true → (s.block b).mirror = none → (s.block b).trig = true → s.seOf b = [] →
    ((s.core (s.coreOf b)).quad.any (fun e => e.blk = b) = false) → ((s.core (s.coreOf b)).boPend.any (fun u => u.blk = b) = false) →
    s.slaved b = false → s.leadBusy b = false → s.inFlightTo b = false →
    ((s.block b).halt = none → (s.block b).liveBeams = [] →
      ∃ t, exec (.blockRetire b) s = .next t ∧ (t.block b).ended = true ∧ (t.block b).resident = false
        ∧ (t.task (s.block b).task).retired = (s.task (s.block b).task).retired + 1 ∧ (t.task (s.block b).task).killed = (s.task (s.block b).task).killed
        ∧ ∀ a, t.peek { sp := .phys, addr := a } 1 = (s.performBlock b).peek { sp := .phys, addr := a } 1)
    ∧ ((s.block b).halt = some h → s.stopped b = true → s.handled b = false → s.accessesDone b = true →
      ((s.ctxs.get (s.ctxOf b) default).dbg = false → s.debugStop b = false → ∃ t, exec (.blockTerminate b) s = .next t ∧ (t.block b).ended = true ∧ (t.block b).resident = false
        ∧ (t.task (s.block b).task).retired = (s.task (s.block b).task).retired + 1 ∧ (t.task (s.block b).task).killed = (s.task (s.block b).task).killed + 1)
      ∧ ((s.ctxs.get (s.ctxOf b) default).dbg = true ∨ s.debugStop b = true → h.stage ≠ .ending → ∃ t, exec (.blockTerminate b) s = .next t ∧ (t.beamAt b h.beam).tpc = (s.beamAt b h.beam).spc
        ∧ ∃ g, (t.block b).halt = some g ∧ g.stage = .debug ∧ g.beam = h.beam ∧ g.cause = h.cause))

/-- R226: block `b` of `s`, halted for its debugger by `h`, goes on as `u`: the beam of the halt at its `tpc`, with `tcg[7]` clear, every
other beam with its parked instruction to be evaluated again. -/
def Sys2Proof.Claims.resumed (b : Nat) (h : Halt) (s u : State) : Prop :=
  (u.block b).halt = none ∧ u.agenda = s.agenda ∧ (u.beamAt b h.beam).spc = (s.beamAt b h.beam).tpc
    ∧ (u.beamAt b h.beam).tcg = (s.beamAt b h.beam).tcg &&& ~~~0x80 ∧ (u.beamAt b h.beam).s = (s.beamAt b h.beam).s
    ∧ (∀ y, (s.beamAt b h.beam).unit (h.unit.getD 0) = some y → ∃ z, (u.beamAt b h.beam).unit (h.unit.getD 0) = some z ∧ z.pc = (s.beamAt b h.beam).tlpc ∧ z.mask = y.mask)
    ∧ (∀ i x, i ≠ h.beam → (s.block b).beams.find i = some x → u.beamAt b i = x.reeval) ∧ ∀ l, u.peek l 1 = s.peek l 1

/-- R226: block `b` of `s`, whose handler `n` its debugger halted by `h`, goes on in the handler as `u`: the handler's own halt stands
again, and where the halt was in the handler's beam, so do its `tpc` and `tlpc`. -/
def Sys2Proof.Claims.handlerGoesOn (b : Nat) (h : Halt) (n : Nested) (s u : State) : Prop :=
  (u.block b).halt = some { h with beam := n.beam, cause := n.cause, unit := n.unit, stage := .handler, frozen := false, nested := none }
    ∧ (h.beam = n.beam → (u.beamAt b n.beam).spc = (s.beamAt b n.beam).tpc ∧ (u.beamAt b n.beam).tpc = n.tpc ∧ (u.beamAt b n.beam).tlpc = n.tlpc)
    ∧ (h.beam ≠ n.beam → u.beamAt b n.beam = s.beamAt b n.beam) ∧ (u.beamAt b n.beam).tcg = (s.beamAt b n.beam).tcg
    ∧ u.agenda = s.agenda ∧ ∀ l, u.peek l 1 = s.peek l 1

/-- R226: block `b` of `u` lets beam `j` issue one scalar instruction, or (`lane`) one lane word, of the debugger's request `req`; where such a
word may issue now, it is the next that does. -/
def Sys2Proof.Claims.stepping (b j req : Nat) (lane : Bool) (u : State) : State :=
  let v := u.setBlock b (fun k => { k with stepping := some (j, req, lane) })
  let turn : List Turn := if lane then (((v.beamAt b j).unitIds.filter (v.mayLane b j)).head?.map (Turn.lane b j)).toList
    else if v.mayScalar b j then [.scalar b j] else []
  { v with agenda := turn ++ u.agenda }

/-- R226: the debugger of a context stops a block whose accesses are performed, lets one beam issue one instruction, after which DEBUG.STEP
halts it again, and lets it go on; what a block raises of itself (R85, R130, R179: `settle`) it raises as it goes on. That a handler in which the
halt was raised goes on as one (log entry 45, DEDUCED), and that the stepped word is the next to issue where it may (log entry 45, DESIGN
CHOICE), is the model's choice. -/
def Sys2Proof.Claims.debuggerHaltsAndSteps : Prop :=
  ∀ (s : State) (b j req : Nat) (freeze lane : Bool), s.onCore b = true → (s.ctxs.get (s.ctxOf b) default).dbg = true → (s.block b).causes = [] →
    (∀ f, (s.block b).halt = none → (s.block b).liveBeams.head? = some f → s.accessesDone b = true →
      ∃ t, exec (.debugBreak b req freeze) s = .next t ∧ (t.beamAt b f).tcg = BitVec.ofNat 32 (9 + 256 * f) ∧ (t.beamAt b f).tdr0 = 1
        ∧ (t.beamAt b f).tdr1 = BitVec.ofNat 32 req ∧ (t.beamAt b f).tpc = (s.beamAt b f).spc ∧ (t.beamAt b f).s = (s.beamAt b f).s
        ∧ ∃ g, (t.block b).halt = some g ∧ g.stage = .debug ∧ g.beam = f ∧ g.frozen = freeze)
    ∧ (∀ h n, (s.block b).halt = some h → h.stage = .debug → (s.beamAt b j).exited = false → s.accessesDone b = true → h.nested = some n →
      ∃ u, handlerGoesOn b h n s u ∧ exec (.debugResume b) s = .next u ∧ exec (.debugStep b j req lane) s = .next (stepping b j req lane u))
    ∧ (∀ h, (s.block b).halt = some h → h.stage = .debug → (s.beamAt b j).exited = false → s.accessesDone b = true → h.nested = none → h.quiet = false →
      ∃ u, resumed b h s u ∧ exec (.debugResume b) s = .next (u.settle b) ∧ exec (.debugStep b j req lane) s = .next (stepping b j req lane (u.settle b)))
    ∧ ((s.block b).halt = none → (s.block b).stepping = some (j, req, lane) → (s.beamAt b j).exited = false → s.accessesDone b = true →
      let t := s.stepEnd b j lane true
      (t.block b).stepping = none ∧ (t.beamAt b j).tcg = BitVec.ofNat 32 (9 + 256 * j) ∧ (t.beamAt b j).tdr0 = 2 ∧ (t.beamAt b j).tdr1 = BitVec.ofNat 32 req
        ∧ ∃ g, (t.block b).halt = some g ∧ g.stage = .debug ∧ g.beam = j)

/-- R41, R219, R226: a block retires, is terminated, or is held, stepped and resumed by its debugger. -/
def Obligations.BlockEndsAndDebugger : Prop := blocksEnd ∧ debuggerHaltsAndSteps

/-- R335 to R338, R174: the one block of a ready task is placed on a core with room, and its beams start at the launch
record's entry with s1 and s2 as the spec says. -/
def Obligations.PlacementStartsTheBlock : Prop :=
  ∀ (s : State) (id c : Nat) (k : Task), s.tasks.find id = some k → k.ready.isSome = true → k.ended = false → k.stopped = false → k.placed = 0 →
    k.lr.blocks = 1 → k.lr.mirror = false → s.firstReady id = true → s.ladders.find k.ctx = none → s.ladders.find k.prog = none → k.die = none →
    s.groupOn id (c / 4) = false → s.canStand id c 1 = true →
    ∃ t, exec (.blockPlacement id c) s = .next t ∧ (t.task id).placed = 1 ∧ (t.task id).die = some (State.dieOf c) ∧ (t.task id).slot = 0
      ∧ ∃ x, t.blocks.find s.ids = some x ∧ x.task = id ∧ x.core = c ∧ x.index = 0 ∧ x.launch = k.addr ∧ x.regg = k.lr.regg ∧ x.scrg = k.lr.scrg
        ∧ x.accg = k.lr.accg ∧ x.resident = true ∧ x.ended = false ∧ x.halt = none
        ∧ ∀ j, j < k.lr.beams → ∃ y, x.beams.find j = some y ∧ y.spc = k.lr.entry ∧ y.role = k.lr.role j ∧ y.units = k.lr.units j ∧ y.tile = k.lr.width
          ∧ y.s = [(1, s.startArgs k), (2, k.addr)] ∧ y.exited = false ∧ y.regions = [] ∧ y.uq = []

/-- R245: a mirrored block whose partner has not trapped 1 ms after it is a mismatch: both blocks lose their gated stores and
start again from their checkpoints, and the count of mismatches rises. -/
def Obligations.MirrorTimeoutIsAMismatch : Prop :=
  ∀ (s : State) (b m : Nat) (h : Halt) (x y : Mirror), b ≠ m → s.onCore b = true → (s.block b).halt = some h → h.cause.isSome = true →
    (h.stage = .partner ∨ h.stage = .ending) → h.since + 100000 ≤ s.now → s.stopped m = false →
    (s.block b).mirror = some x → (s.block m).mirror = some y → x.partner = m → y.partner = b → x.primary = true → y.primary = false →
    x.rerun = false →
    ∃ t, exec (.mirrorTrapTimeout b) s = .next t ∧ (t.block b).halt = none ∧ (t.block m).halt = none
      ∧ (∃ u, (t.block b).mirror = some u ∧ u.gate = [] ∧ u.mism = x.mism + 1 ∧ u.rerun = true)
      ∧ (∃ u, (t.block m).mirror = some u ∧ u.gate = [] ∧ u.mism = y.mism + 1 ∧ u.rerun = true)
      ∧ ∀ j z, ((s.ckpts.get b default).beams.find j = some z) → (s.ckpts.find b).isSome = true → (t.beamAt b j).spc = z.spc ∧ (t.beamAt b j).s = z.s

namespace Sys2Proof.Claims

/-- Nothing of block `b` is in flight: no entry on its core's engines, no access, no exchange for its context, and its beams have no record in
private memory. -/
def quietBlock (b : Nat) (s : State) : Prop :=
  s.seOf b = [] ∧ (s.core (s.coreOf b)).quad.any (fun e => e.blk = b) = false ∧ (s.core (s.coreOf b)).boPend = [] ∧ s.accessesDone b = true
    ∧ (s.core (s.coreOf b)).accReq ≠ some (s.ctxOf b) ∧ ∀ e, e ∈ (s.block b).beams → e.2.clears = [] ∧ e.2.frags = []

/-- Block `b` was saved at the TYIELD of its one beam `j`, with no entry, no unit and no valid fragment record, each of which has been read. -/
def savedAtYield (b j : Nat) (x : Beam) (s : State) : Prop :=
  let k := s.block b
  s.blocks.find b = some k ∧ k.resident = false ∧ k.ended = false ∧ k.img.altered = false ∧ k.img.quad = [] ∧ k.img.se = [] ∧ k.img.fuse = 0
    ∧ k.beams = [(j, x)] ∧ x.exited = false ∧ x.spark = .yield ∧ x.lit = none ∧ x.shade = none ∧ x.frags = [] ∧ x.clears = [] ∧ s.accessesDone b = true
    ∧ ∀ r, r < 64 → (s.recordNow b j r).2 = s ∧ ∀ bs, (s.recordNow b j r).1 = some bs → numAt bs 10 1 % 2 = 0

/-- It stands on core `c` again: its TYIELD has returned, its registers stand, and where only its context's blocks stand there the core has its
planes. -/
def standsAgain (b j c : Nat) (x : Beam) (s t : State) : Prop :=
  (t.block b).resident = true ∧ (t.block b).core = c ∧ (t.beamAt b j).spc = x.spc + 1 ∧ (t.beamAt b j).spark = .none ∧ (t.beamAt b j).preq = 0
    ∧ (t.beamAt b j).s = x.s ∧ (t.beamAt b j).v = x.v
    ∧ ((∀ e, e ∈ s.onCoreOf c → s.ctxOf e.1 = s.ctxOf b) → (t.core c).active = (s.block b).img.active ∧ (t.core c).shadow = (s.block b).img.shadow)

/-- The beams of block `b` have seen a KNOCK with bits `m`, but for one in its handler, which sees it at its end. -/
def knocked (b : Nat) (m : BitVec 3) (s t : State) : Prop :=
  ∀ j x, (s.block b).beams.find j = some x → t.beamAt b j = if x.inHandler then x else { x with preq := x.preq ||| m }

end Sys2Proof.Claims

/-- R222 to R225, R231: the pre-emption ladder: a KNOCK sets the beams' `preq` and starts the grace; blocks at a boundary are saved
off their cores; at grace expiry SHUTTER stops them first, and they are saved once what is in flight has ended and no exchange runs for
their context; a save that is not complete in 2 ms evicts the context; a saved block stands again at its yield. That the save of a teardown ends its blocks
and removes the ladder is the model's choice (log entry 41, DEDUCED). -/
def Obligations.PreemptionLadder : Prop :=
  ∀ (s : State) (key b : Nat) (l : Ladder),
    let k := s.block b
    (∀ cause c, key < 2 ^ 32 → s.ctxs.find key = some c → s.ladders.find key = none → s.blocksOf (fun i => s.ctxOf i = key) = [b] →
      ∃ t, exec (.knock key cause) s = .next t ∧ knocked b (State.knockBits cause) s t
        ∧ t.ladders.find key = some { step := 1, cause := cause, blocks := [b], since := s.now, dirty := false, knock := s.now, deadline := if State.stopRank cause = 1 ∨ (c.nopre = true ∧ State.stopRank cause < 3) then none else some (s.now + 100 * (s.tenant c.tenant).grace) })
    ∧ (s.ladders.find key = some l → l.blocks = [b] → s.onCore b = true → quietBlock b s → k.trig = true → k.mirror = none →
      (l.step = 1 → s.atBoundary b = true →
        ((l.cause = .rebalance 0 ∨ l.cause = .migration) → ∃ t, exec (.boundarySave key) s = .next t ∧ (t.block b).resident = false ∧ (t.block b).beams = k.beams
          ∧ (t.block b).img.active = (s.core k.core).active ∧ (t.block b).img.shadow = (s.core k.core).shadow
          ∧ t.ladders.find key = some { l with step := 3, since := s.now })
        ∧ (∀ n, l.cause = .teardown n → ∃ t, exec (.boundarySave key) s = .next t ∧ (t.block b).ended = true ∧ t.ladders.find key = none))
      ∧ (∀ d, l.step = 1 → l.deadline = some d → d ≤ s.now → k.halt = none → k.liveBeams ≠ [] → ∃ t, exec (.shutter key) s = .next t
        ∧ t.ladders.find key = some { l with step := 2, since := s.now } ∧ (t.block b).halt = some { stage := .signalled, since := s.now, quiet := true, shut := s.now }
        ∧ ∀ j, (t.beamAt b j).spc = (s.beamAt b j).spc)
      ∧ (∀ h, l.step = 2 → l.cause = .migration → k.halt = some h → h.cause = none → ∃ t, exec (.shutter key) s = .next t ∧ (t.block b).resident = false
        ∧ (t.block b).halt = none ∧ (∀ j, (t.beamAt b j).tpc = (s.beamAt b j).spc) ∧ t.ladders.find key = some { l with step := 3, since := s.now }))
    ∧ (s.ladders.find key = some l → l.blocks = [b] → s.onCore b = true → l.step = 2 → s.seOf b = [] → (s.core (s.coreOf b)).quad.any (fun e => e.blk = b) = false →
      (s.core (s.coreOf b)).boPend = [] → (s.core (s.coreOf b)).accReq = some (s.ctxOf b) →
      ∃ t, exec (.shutter key) s = .next t ∧ t.blocks = s.blocks ∧ t.ladders = s.ladders ∧ ∀ c, t.core c = s.core c)
    ∧ (s.ladders.find key = some l → l.step = 2 → l.since + 200000 ≤ s.now → key < 2 ^ 32 → (s.ctxs.find key).isSome = true → ∃ t, exec (.evict key) s = .next t
      ∧ t.ladders.find key = none ∧ (∀ e, e ∈ t.tasks → e.2.ctx ≠ key) ∧ ∀ c, (t.core c).accown ≠ some key)
    ∧ (∀ cl j x, s.ladders.find key = some l → l.step = 3 → l.cause = .migration → l.dirty = false → l.blocks = [b] → savedAtYield b j x s →
      s.groupFits (s.ladderCtx key) cl [b] = true →
      ∃ t, exec (.contextRestore key cl) s = .next t ∧ standsAgain b j (4 * cl + k.core % 4) x s t ∧ t.ladders.find key = none)

/-- The shared cores of a cluster have their slot's owner; every other core keeps its own. -/
def Sys2Proof.Claims.slotOwners (c : Nat) (s t : State) : Prop :=
  ∀ d, (t.core d).owner = if d / 4 = c / 4 ∧ (∃ e, e ∈ s.tenants ∧ e.2.shared.testBit d = true) then s.slotOwner d else (s.core d).owner

/-- R231, R320: a slot boundary of a cluster with one block: in its slot it stands unchanged; out of it it runs on while
an exchange runs on its core, is then stopped and, once its accesses are performed, saved with its position, and the cores change their owner; a
saved one whose slot it is stands again. -/
def Sys2Proof.Claims.slotBoundaryOfABlock : Prop :=
  ∀ (s : State) (c b : Nat) (k : Block), s.blocks = [(b, k)] → k.core / 4 = c / 4 → k.mirror = none → k.halt = none → k.ended = false →
    (k.resident = true → s.inSlot b = true → ∃ t, exec (.calendarSlotBoundary c) s = .next t ∧ t.blocks = s.blocks ∧ slotOwners c s t)
    ∧ (k.resident = true → s.inSlot b = false → (∃ e, e ∈ s.tenants ∧ e.2.shared.testBit k.core = true) → k.liveBeams ≠ [] →
      ((s.core k.core).accReq.isSome = true → ∃ t, exec (.calendarSlotBoundary c) s = .next t ∧ t = s)
      ∧ (s.seOf b = [] → (s.core k.core).quad.any (fun e => e.blk = b) = false → (s.core k.core).boPend = [] → (s.core k.core).accReq = none → s.accessesDone b = false →
        ∃ t, exec (.calendarSlotBoundary c) s = .next t ∧ (t.block b).resident = true ∧ (t.block b).halt = some { stage := .signalled, since := s.now, quiet := true, shut := s.now }
          ∧ ∀ d, t.core d = s.core d)
      ∧ ((s.core k.core).accReq = none → quietBlock b s → ∃ t, exec (.calendarSlotBoundary c) s = .next t ∧ (t.block b).resident = false ∧ (t.block b).halt = none
          ∧ (∀ j, (t.beamAt b j).tpc = (s.beamAt b j).spc ∧ (t.beamAt b j).s = (s.beamAt b j).s) ∧ slotOwners c s t))
    ∧ (∀ j x, savedAtYield b j x s → s.ladderOf b = none → s.inSlot b = true → (∀ d, (s.core d).owner = s.slotOwner d) → s.groupFits (s.ctxOf b) (c / 4) [b] = true →
      ∃ t, exec (.calendarSlotBoundary c) s = .next t ∧ standsAgain b j k.core x s t)

/-- R227, R238, R248, R320, R331: an in-field test falls due, KNOCKs, runs once its blocks are at a boundary, defers three times,
and withdraws a cluster that fails; a core that trips is withdrawn and its blocks move; a throttle takes its step; at a slot boundary a
shared core changes its owner, and its blocks leave it and stand on it as their slots say. -/
def Obligations.TestsTripsAndCalendars : Prop :=
  ∀ (s : State) (c b : Nat) (f : FieldTest),
    let ctx := s.ctxOf b
    let ladder (key : Nat) (cause : StopCause) (t : State) : Prop := knocked b (State.knockBits cause) s t ∧ ∃ l, t.ladders.find key = some l ∧ l.step = 1 ∧ l.cause = cause ∧ l.blocks = [b]
    let test := State.testKey c ctx
    let known : Prop := s.ladderOf b = none ∧ s.ladders.find test = none
    (s.tests.find c = none → known → s.testBlocks c = [b] → ∃ t, exec (.inFieldTest c) s = .next t ∧ t.tests.find c = some { since := s.now } ∧ ladder test .test t)
    ∧ (∀ u, s.tests.find c = some f → f.running = false → f.next = some u → u ≤ s.now → known → s.testBlocks c = [b] →
      ∃ t, exec (.inFieldTest c) s = .next t ∧ t.tests.find c = some { f with since := s.now, next := none } ∧ ladder test .test t)
    ∧ (s.tests.find c = some f → f.running = false → f.next = none → s.testBlocks c = [b] → s.atBoundary b = true → quietBlock b s →
      (s.ctxs.get ctx default).nopre = false → ∃ t, exec (.inFieldTest c) s = .next t ∧ (t.block b).resident = false ∧ (t.block b).beams = (s.block b).beams
        ∧ t.tests.find c = some { f with running := true, since := s.now })
    ∧ (s.tests.find c = some f → f.running = false → f.next = none → f.waiting = false → s.testBlocked c f = true →
      (f.deferrals ≠ 2 → ∃ t, exec (.testDeferred c) s = .next t ∧ t.tests.find c = some { f with deferrals := f.deferrals + 1, next := some (s.now + 10000000) })
      ∧ (f.deferrals = 2 → ∃ t, exec (.testDeferred c) s = .next t ∧ t.tests.find c = some { f with deferrals := 3, waiting := true }))
    ∧ (s.tests.find c = some f → f.running = true → (∀ e, e ∈ s.ladders → e.1 / 2 ^ 32 ≠ c + 1) →
      (∃ t, exec (.inFieldTestEnd c true) s = .next t ∧ t = { s with tests := s.tests.del c })
      ∧ (∃ t, exec (.inFieldTestEnd c false) s = .next t ∧ t.tests.find c = none ∧ ∀ d, (t.core d).withdrawn = (decide (d / 4 = c) || (s.core d).withdrawn)))
    ∧ (s.ladders.find ctx = none → s.groupsOf (s.blocksOf (fun i => s.coreOf i = c)) = [b] → ∃ t, exec (.criticalTrip c) s = .next t ∧ ladder ctx .migration t
      ∧ ∀ d, (t.core d).withdrawn = (decide (d = c) || (s.core d).withdrawn))
    ∧ (∀ n, ∃ t, exec (.throttle c n) s = .next t ∧ onlyCore c { s.core c with throttle := n } s t)
    ∧ (s.blocks = [] → ∃ t, exec (.calendarSlotBoundary c) s = .next t ∧ slotOwners c s t) ∧ slotBoundaryOfABlock

/-- R255, R256, R261, R263: what the task table does by itself: a deferred trigger counts a waiting task down or leaves a
credit; a task whose blocks have retired joins its ended children, merging what each has written, and ends; a fork that finds no store
in 100,000 ticks traps. -/
def Obligations.TaskTableEvents : Prop :=
  ∀ (s : State) (d id tn : Nat) (a : W64) (rest : List (Nat × Nat × W64)) (k : Task) (cx : Nat),
    ((s.die d).deferred = (tn, cx, a) :: rest → s.tableFree d = true →
      (s.tasks.any (fun e => e.2.tenant = tn && e.2.addr = a && decide (0 < e.2.count)) = false → s.credits.any (fun c => c.tenant = tn && c.addr = a) = false →
        ∃ t, exec (.deferredCredit d) s = .next t ∧ (t.die d).deferred = rest ∧ t.tasks = s.tasks ∧ t.credits = s.credits ++ [{ die := d, tenant := tn, addr := a, givers := [cx] }])
      ∧ (s.tasks.first (fun _ e => e.tenant = tn && e.addr = a && 0 < e.count && !e.ended) = some (id, k) → s.task id = k →
        ∃ t, exec (.deferredCredit d) s = .next t ∧ (t.die d).deferred = rest ∧ t.credits = s.credits ∧ (t.task id).count = k.count - 1
          ∧ (t.task id).ready = (if k.count = 1 then some s.ids else k.ready)))
    ∧ (s.tasks.find id = some k → k.ended = false → k.lr.blocks ≤ k.retired →
      (k.kids.all (fun c => (s.task c).joined) = true → (k.triggered = true ∨ k.succ = []) → k.starts = false →
        ∃ t, exec (.taskEnd id) s = .next t ∧ (t.task id).ended = true ∧ (t.task id).triggered = true ∧ (t.task id).ready = none
          ∧ (∀ i, i ≠ id → t.task i = s.task i) ∧ (∀ e, e ∈ t.blocks → e.2.task ≠ id) ∧ ∀ l : Loc, l.sp = .phys ∨ l.sp = .host → t.peek l 1 = s.peek l 1)
      ∧ (∀ c, k.kids.find? (fun c => !(s.task c).joined) = some c → (s.task c).ended = true → (s.task c).rev = none →
        ∃ t, exec (.taskEnd id) s = .next t ∧ (t.task c).joined = true ∧ ∀ i, i ≠ c → t.task i = s.task i)
      ∧ (∀ c r e va l page, k.kids.find? (fun c => !(s.task c).joined) = some c → (s.task c).ended = true → oneLine s c id r e va l page →
        ∃ t, exec (.taskEnd id) s = .next t ∧ joinsOneLine s c r e va l t ∧ (t.task c).rev = none))
    ∧ (∀ b j u f need, s.onCore b = true → (s.block b).halt = none → (s.beamAt b j).exited = false → (s.beamAt b j).spark = .fork u f need → u + 100000 ≤ s.now →
      s.revFree (s.tenantOf b) < need →
      ∃ t, exec (.revStoreTimeout b j) s = .next t ∧ (t.beamAt b j).tcg = BitVec.ofNat 32 (1 + 256 * j) ∧ (t.beamAt b j).tdr0 = 9
        ∧ (t.beamAt b j).tdr1 = BitVec.ofNat 32 (s.revFree (s.tenantOf b)) ∧ (t.beamAt b j).tdr2 = BitVec.ofNat 32 need
        ∧ ∃ h, (t.block b).halt = some h ∧ h.beam = j ∧ h.stage = .signalled)

/-- R268, R274 to R277, R280, R281: the care of memory: a table's rebuild, the return of space in a dirty log, what a patrol
finds (the eight words of the unit are poisoned), the scrubbing of a freed page and the soft repair of a row. -/
def Obligations.MemoryCareEvents : Prop :=
  ∀ (s : State) (d n p : Nat) (rest : List ScrubEnt) (r : RowId),
    let k := d % 4 * 2 ^ 32 + n
    let row := State.rowOf k
    (s.maps.any (fun e => decide (e.2.tenant = n) && e.2.rebuild) = false → ∃ t, exec (.tableRebuild n d) s = .next t
      ∧ ∀ i m, s.maps.find i = some m → t.maps.find i = some (if m.tenant = n then { m with rebuild := true } else m))
    ∧ (s.maps.any (fun e => decide (e.2.tenant = n) && e.2.rebuild) = true → ∃ t, exec (.tableRebuild n d) s = .next t
      ∧ ∀ i m, s.maps.find i = some m → t.maps.find i = some (if m.tenant = n then { m with rebuild := false } else m))
    ∧ ((s.tenant n).full = true → ((s.tenant n).dlTail + 2 ^ 32 - s.hostNum (s.tenant n).dlhead 4) % 2 ^ 32 < 2 ^ (s.tenant n).dllog2 →
      ∃ t, exec (.dirtyLogSpace n) s = .next t ∧ t.tenant n = { s.tenant n with full := false } ∧ ∀ i, i ≠ n → t.tenant i = s.tenant i)
    ∧ (∃ t, exec (.patrol d n .clean) s = .next t ∧ t = { s with dies := t.dies, free := t.free } ∧ onlyIntake s t)
    ∧ (∃ t, exec (.patrol d n .corrected) s = .next t ∧ t.mem = s.mem
      ∧ t.rowSt row = { s.rowSt row with errors := s.recentErrors (s.rowSt row) ++ [s.now] })
    ∧ (∃ t, exec (.patrol d n .uncorrectable) s = .next t ∧ t.mem.cells = s.mem.cells ∧ t.blocks = s.blocks
      ∧ (∀ u, u ∈ t.mem.poison ↔ u / 8 = k ∨ u ∈ s.mem.poison) ∧ t.rowSt row = { s.rowSt row with due := true })
    ∧ (∀ c, (s.die d).scrubq = .granules c n :: rest → ∃ t, exec (.scrub d true) s = .next t ∧ (t.die d).scrubq = rest
      ∧ (t.core c).scrubbing = (s.core c).scrubbing - n ∧ t.mem = s.mem)
    ∧ ((s.die d).scrubq = .page p n :: rest → dieOfPage p = d →
      ((s.die d).retired.contains p = false → s.pageBad p = false → ∃ t, exec (.scrub d true) s = .next t ∧ (t.die d).scrubq = rest
        ∧ (∀ a, a / 65536 = p → t.mem.get a = 0) ∧ (∀ u, u / 8192 = p → u ∉ t.mem.poison) ∧ (∀ a, a / 65536 ≠ p → t.mem.get a = s.mem.get a)
        ∧ (t.die d).clean = (s.die d).clean ++ [(p, 1)] ∧ (t.die d).retired = (s.die d).retired)
      ∧ ((s.die d).retired.contains p = true ∨ s.pageBad p = true → ∃ t, exec (.scrub d true) s = .next t ∧ (t.die d).scrubq = rest
        ∧ (t.die d).clean = (s.die d).clean ∧ p ∈ (t.die d).retired)
      ∧ (n = 0 → ∃ t, exec (.scrub d false) s = .next t ∧ (t.die d).scrubq = .page p 1 :: rest ∧ (t.die d).clean = (s.die d).clean)
      ∧ (n ≠ 0 → ∃ t, exec (.scrub d false) s = .next t ∧ (t.die d).scrubq = rest ∧ p ∈ (t.die d).retired ∧ (t.die d).clean = (s.die d).clean
        ∧ ∀ q, q ∈ State.pageRows p → (t.rowSt q).due = true))
    ∧ ((s.die r.die).quiesce = none → s.qualifies r = true → (s.rowSt r).repaired = false → Config.spareRow s.free = true →
      ∃ t, exec (.softRepair r) s = .next t ∧ (t.die r.die).quiesce = some (r, s.now + 20000) ∧ (t.rowSt r).errors = [] ∧ (t.rowSt r).due = false ∧ (t.die r.die).hard = (s.die r.die).hard)
    ∧ ((s.die r.die).quiesce = none → s.qualifies r = true → ((s.rowSt r).repaired = true ∨ Config.spareRow s.free = false) →
      (s.die r.die).hard.contains r = false → (s.die r.die).retire.contains r = false → ((s.die r.die).hard.filter (fun x => x.stack = r.stack)).length < 1024 →
      ∃ t, exec (.softRepair r) s = .next t ∧ (t.die r.die).hard = (s.die r.die).hard ++ [r] ∧ (t.die r.die).quiesce = none)
    ∧ (∀ u, (s.die r.die).quiesce = some (r, u) → u ≤ s.now → ∃ t, exec (.softRepairEnd r.die) s = .next t ∧ (t.die r.die).quiesce = none
      ∧ t.rowSt r = { s.rowSt r with repaired := true } ∧ t.mem = s.mem)

namespace Sys2Proof.Claims

/-- The seven SPDM requests, in the order of R329. -/
def spdmKind : Instr → Option Nat
  | .getVersion _ => some 0
  | .getCapabilities _ => some 1
  | .negotiateAlgorithms _ => some 2
  | .getDigests _ => some 3
  | .getCertificate _ => some 4
  | .challenge _ => some 5
  | .getMeasurements _ => some 6
  | _ => none

/-- Runs instructions one after the other. -/
def runAll : List Instr → State → Out
  | [], s => .next s
  | i :: l, s => match exec i s with | .next t => runAll l t | o => o

end Sys2Proof.Claims

/-- R329, R330: each SPDM request is answered by the trusted firmware, and a sequence of requests in its order; the bytes of a response are
free values (log entry 9), which depend on whether the untrusted image was verified, and nothing else differs. -/
def Obligations.SpdmRequestsAreAnswered : Prop :=
  (∀ (s : State) (q : List Byte),
    let answered (k : Nat) : Out := .next { s with spdm := { s.spdm with answers := s.spdm.answers ++ [(k, Config.spdmResponse s.spdm.count k s.spdm.verified)], count := s.spdm.count + 1 } }
    exec (.getVersion q) s = answered 0 ∧ exec (.getCapabilities q) s = answered 1 ∧ exec (.negotiateAlgorithms q) s = answered 2 ∧ exec (.getDigests q) s = answered 3
    ∧ exec (.getCertificate q) s = answered 4 ∧ exec (.challenge q) s = answered 5 ∧ exec (.getMeasurements q) s = answered 6)
  ∧ ∀ (s : State) (l : List Instr) (ks : List Nat), l.map spdmKind = ks.map some →
    runAll l s = .next { s with spdm := { s.spdm with
      answers := s.spdm.answers ++ ks.zipIdx.map (fun e => (e.1, Config.spdmResponse (s.spdm.count + e.2) e.1 s.spdm.verified)), count := s.spdm.count + l.length } }

namespace Sys2Proof.Claims

/-- Record `w` of slot `k` is stable and newer than what was observed: its slot takes it up, and a pass is due. -/
def takenUp (k : Nat) (w : List Byte) (hv : Bool) (s t : State) : Prop :=
  t.slot k = { s.slot k with retries := 0, hv := hv, want := w, todo := true } ∧ t.recon.due = true

/-- What host memory holds for slot `k` is a stable record with a new version. -/
def newRecord (k : Nat) (w : List Byte) (hv : Bool) (s : State) : Prop :=
  s.readRecord k = some (w, hv) ∧ recVer w % 2 = 0 ∧ recKind w ≠ 0 ∧ (s.slot k).job = 0 ∧ (s.slot k).seen < recVer w ∧ (s.slot k).conv < recVer w

end Sys2Proof.Claims

/-- R298 to R300, R306: the root is taken at the first write of DSRROOT, and its areas and the capability list with it; a
stable record with a new version is taken up at a snoop of its area, at a sweep and at the retry of an odd one, which is read again 16
times, each 1 µs after the last. -/
def Obligations.RecordsAreObserved : Prop :=
  ∀ (s : State) (k : Nat) (w : List Byte) (hv : Bool) (addr : BitVec 64) (r : Root) (x : Area),
    (s.recon.rooted = true → ∃ t, exec (.dsrrootWrite addr) s = .next t ∧ t = s)
    ∧ (s.recon.rooted = false → s.spdm.verified = true → addr.toNat % 4096 = 0 → State.rootOf (s.host.bytes addr.toNat 4096) = some r → r.nareas = 1 →
      State.areaOf (s.host.bytes r.areatab 32) 0 r.nmarks [] = some x → x.count = 0 →
      ∃ t, exec (.dsrrootWrite addr) s = .next t ∧ t.recon.dsrroot = addr ∧ t.recon.rooted = true ∧ t.recon.root = some r ∧ t.recon.areas = [x]
        ∧ t.host.bytes (addr.toNat + 0x400) 496 = capList 0 ∧ ∀ a, a < addr.toNat + 0x400 ∨ addr.toNat + 0x400 + 496 ≤ a → t.host.get a = s.host.get a)
    ∧ (s.recon.areas = [x] → x.count = 1 → k = 65536 * x.index + 1 → newRecord k w hv s →
      (∀ b : W64, s.recon.rooted = true → s.recon.dsrroot.toNat / 64 ≠ b.toNat / 64 → x.base / 64 = b.toNat / 64 → ∃ t, exec (.hostSnoop b.toNat) s = .next t ∧ takenUp k w hv s t)
      ∧ (s.recon.root.isSome = true → ∃ t, exec .sweep s = .next t ∧ takenUp k w hv s t ∧ t.recon.lastSweep = s.now))
    ∧ (s.recon.areas = [x] → x.count = 1 → k = 65536 * x.index + 1 → s.readRecord k = some (w, hv) → recVer w % 2 = 1 →
      ∀ b : W64, s.recon.rooted = true → s.recon.dsrroot.toNat / 64 ≠ b.toNat / 64 → x.base / 64 = b.toNat / 64 → ∃ t, exec (.hostSnoop b.toNat) s = .next t
        ∧ t.slot k = { s.slot k with retries := 16, readAt := s.now } ∧ t.recon.due = s.recon.due)
    ∧ ((s.slot k).retries ≠ 0 → (s.slot k).readAt + 100 ≤ s.now → newRecord k w hv s → ∃ t, exec (.recordReadRetry (k / 65536) (k % 65536)) s = .next t ∧ takenUp k w hv s t)
    ∧ ((s.slot k).retries ≠ 0 → (s.slot k).readAt + 100 ≤ s.now → s.readRecord k = some (w, hv) → recVer w % 2 = 1 → ∃ t, exec (.recordReadRetry (k / 65536) (k % 65536)) s = .next t
      ∧ t.slot k = { s.slot k with retries := (s.slot k).retries - 1, readAt := s.now } ∧ t.recon.due = s.recon.due)
    ∧ (s.now < (s.slot k).readAt + 100 → exec (.recordReadRetry (k / 65536) (k % 65536)) s = .next s)

/-- R271, R278, R308 to R312, R328, R337: a pass makes a new TENANT record's object; the shootdown of a removed mapping ends;
an allocation that waited at the head of its die gets its pages; a program's load goes on; a stopped tenant's resources go. -/
def Obligations.ReconcilerMakesAndUnmakes : Prop :=
  ∀ (s : State) (k id d : Nat) (x : Slot) (w : List Byte), recId w = id →
    (s.recon.root.isSome = true → s.recon.due = true → s.recon.slots = [(k, x)] → x.want = w → x.todo = true → x.again = false → x.job = 0 → x.inforce = [] → x.hv = true →
      recKind w = 1 → recLive w = true → recDeps w = [] → s.recordFault k = none → s.blocks = [] → (∀ c, c ∈ s.cores → c.2.se = []) → x.inflight = [] → s.unanswered (recTenant w) = [] → s.underWay (recTenant w) = false →
      s.uncleared (recTenant w) (Tenant.ofRec w (s.tenant (recTenant w))) = false → s.tenantClash (recTenant w) (Tenant.ofRec w (s.tenant (recTenant w))) = false →
      ∃ t, exec .reconcilePass s = .next t ∧ t.tenants.find (recTenant w) = some (Tenant.ofRec w (s.tenant (recTenant w)))
        ∧ (t.slot k).state = 3 ∧ (t.slot k).conv = recVer w ∧ (t.slot k).obsv = recVer w ∧ (t.slot k).inforce = w ∧ (t.slot k).job = 0)
    ∧ (∀ m, s.recon.slots.first (fun _ y => y.alive && recKind y.inforce = 3 && recId y.inforce = id) = some (k, x) → s.slot k = x → s.maps.find id = some m →
      m.conv = false → s.landed x.inflight = true → s.gateHolds m = false → x.job = 1 → ∃ t, exec (.shootdown id) s = .next t ∧ t.maps.find id = none
        ∧ (∀ i, i ≠ id → t.maps.find i = s.maps.find i) ∧ (t.slot k).inforce = [] ∧ (t.slot k).state = 6 ∧ (t.slot k).job = 0)
    ∧ (∀ q ps rest, (s.die d).waitq = id :: q → id < 2 ^ 40 → s.recon.slots.first (fun _ y => (y.job = 3 || y.job = 4) && recId y.want = id) = some (k, x) → x.job = 4 → s.slot k = x → x.want = w →
      recKind w = 2 → s.depsMet w x.hv = true → s.ctxs.find id = none → (List.range 4).find? (fun d => (numAt w 68 1).testBit d) = some d →
      65536 ≤ numAt w 72 8 → numAt w 72 8 / 65536 ≤ s.poolPages d → takeRanges (numAt w 72 8 / 65536) (s.die d).clean = (ps, rest) →
      ∃ t, exec (.cleanPoolGrant d) s = .next t ∧ (t.die d).clean = rest ∧ (t.die d).waitq.contains id = false ∧ (t.slot k).state = 3 ∧ (t.slot k).inforce = w
        ∧ ∃ c, t.ctxs.find id = some c ∧ c.area = ps ∧ c.tenant = recTenant w ∧ c.cid = numAt w 64 2 ∧ c.dies = numAt w 68 1 % 16)
    ∧ (∀ u, s.recon.slots.first (fun _ y => y.job = 4 && recKind y.want = 4 && recId y.want = id) = some (k, x) → s.slot k = x → x.want = w → s.depsMet w x.hv = true →
      (s.setMark k (fun y => { y with state := 1, obsv := recVer w })).loadProgram w = .done u →
      ∃ t, exec (.programLoadResume id) s = .next t ∧ t.progs = u.progs ∧ t.slot k = { u.slot k with job := 8 })
    ∧ (s.recon.slots.first (fun _ y => y.alive && recKind y.inforce = 1 && recId y.inforce = id) = some (k, x) → s.slot k = x → s.recon.stopping.contains id = true →
      x.job = 1 → s.unanswered (recTenant x.inforce) = [] → s.noUsers k = true → s.blocksOf (fun b => s.tenantOf b = recTenant x.inforce) = [] → s.anyTask (fun t => t.tenant = recTenant x.inforce) = false →
      ∃ t, exec (.tenantStop id) s = .next t ∧ t.tenants.find (recTenant x.inforce) = none ∧ (∀ i, i ≠ recTenant x.inforce → t.tenants.find i = s.tenants.find i)
        ∧ t.recon.stopping.contains id = false ∧ (t.slot k).state = 6 ∧ (t.slot k).inforce = [] ∧ ∀ c, c ∈ t.credits → c.tenant ≠ recTenant x.inforce)

/-- R283 to R295: an event that some filter takes enters the intake, or is dropped and counted; the filters of the head event
run in turn within their tenant's budget; a window ends; an export is written; a filter whose SRAM failed is detached. -/
def Obligations.LanternEvents : Prop :=
  ∀ (s : State) (d id : Nat) (e : LEvent) (tick : Bool) (f : Filter),
    let l := s.lantern d
    let code := e.code.toNat
    let tid := e.tenant.toNat
    let rec12 : List W32 := [BitVec.ofNat 32 code, s.reftime.setWidth 32, (s.reftime >>> 32).setWidth 32, e.ctx, e.tenant, e.place, e.cycles, BitVec.ofNat 32 (code % 4), e.f8, e.f9, e.f10, e.f11]
    let takers : Tab Filter := s.filters.filter (fun x => decide (x.2.die = d) && x.2.takes code tid)
    (takers ≠ [] → (tick = true ∨ l.intook = false) → l.fifo.length < 256 → ∃ t, exec (.lanternEvent d e tick) s = .next t
      ∧ t.lantern d = { l with fifo := l.fifo ++ [rec12], intook := true } ∧ ∀ c, c ≠ d → t.die c = s.die c)
    ∧ (takers ≠ [] → ((tick = true ∨ l.intook = false) → 256 ≤ l.fifo.length) → ∃ t, exec (.lanternEvent d e tick) s = .next t
      ∧ (t.lantern d).fifo = l.fifo ∧ (∀ k, (t.lantern d).drops.get k 0 = if k = code then l.drops.get k 0 + 1 else l.drops.get k 0)
      ∧ ∀ k, (t.lantern d).tdrops.get k 0 = if k = tid then l.tdrops.get k 0 + 1 else l.tdrops.get k 0)
    ∧ (takers = [] → ∃ t, exec (.lanternEvent d e tick) s = .next t ∧ (t.lantern d).fifo = l.fifo ∧ (t.lantern d).drops = l.drops ∧ t.filters = s.filters)
    ∧ (l.run = none → l.window = s.now / 100000 → s.exportDue d = false → l.todo = [] → ∀ v r, l.fifo = v :: r → ∃ t, exec (.filterRun d) s = .next t
      ∧ t.lantern d = { l with fifo := r, evt := v, todo := (s.filters.filter (fun x => decide (x.2.die = d) && x.2.takes ((v[0]?).getD 0).toNat ((v[4]?).getD 0).toNat)).map (fun x => x.1) })
    ∧ (l.run = none → l.window = s.now / 100000 → s.exportDue d = false → ∀ r, l.todo = id :: r → s.filters.get id default = f →
      (f.tenant = 0 ∨ f.words.length + l.spent.get f.tenant 0 ≤ (s.tenant f.tenant).lbud →
        ∃ t, exec (.filterRun d) s = .next t ∧ t.lantern d = { l with todo := r, run := some id, g := [], wordIx := 0, words := 0 })
      ∧ (f.tenant ≠ 0 → (s.tenant f.tenant).lbud < f.words.length + l.spent.get f.tenant 0 → f.words.length ≠ 0 →
        ∃ t, exec (.filterRun d) s = .next t ∧ t.lantern d = { l with todo := r, skips := l.skips.put f.tenant (l.skips.get f.tenant 0 + 1) }))
    ∧ (l.run = none → l.window < s.now / 100000 → s.exportDue d = false → ∃ t, exec (.lanternWindow d) s = .next t ∧ t.lantern d = { l with window := l.window + 1, spent := [], skips := [] }
      ∧ ∀ i x, s.filters.find i = some x → ∃ y, t.filters.find i = some y ∧ y.objs = x.objs
        ∧ (if x.die ≠ d ∨ l.window ≤ x.since then y = x
          else y.windows = x.windows + 1 ∧ (y.due = true ↔ x.period ≠ 0 ∧ (x.windows + 1) % x.period = 0)
            ∧ (x.tenant ≠ 0 → y.charge = l.spent.get x.tenant 0 ∧ y.skipped = l.skips.get x.tenant 0)))
    ∧ (s.exportDue d = true → exec (.lanternWindow d) s = .next s ∧ exec (.filterRun d) s = .next s)
    ∧ (∀ o, s.filters.find id = some f → f.die = d → f.due = true → l.run = none → f.tenant = 0 → f.decls = [o] → o.kind = 3 → ∃ t, exec (.lanternExport d id) s = .next t
      ∧ t.host.bytes f.exaddr 8 = toBytes 8 f.windows ∧ t.host.bytes (f.exaddr + 8) 8 = toBytes 4 f.charge ++ toBytes 4 f.skipped
      ∧ t.host.bytes (f.exaddr + 64) 8 = toBytes 8 (f.objs.get 0 {}).total.toNat ∧ (∀ a, a < f.exaddr ∨ f.exaddr + 72 ≤ a → t.host.get a = s.host.get a)
      ∧ t.filters.find id = some { f with due := false, objs := if f.clr then [] else f.objs })
    ∧ (s.filters.find id = some f → f.die = d → ∃ t, exec (.lanternSramError d id) s = .next t ∧ t.filters.find id = none
      ∧ (∀ i, i ≠ id → t.filters.find i = s.filters.find i) ∧ (t.lantern d).run = (if l.run = some id then none else l.run))

namespace Sys2Proof.Claims

/-- The flits of the message have left the buffer at whose front they stood (R352). -/
def served (m : FMsg) (s t : State) : Prop :=
  ∀ p v n, s.portOf m = some (p, v, n) → (t.link p).rx.get v [] = ((s.link p).rx.get v []).drop n

/-- The message is dropped and counted, its flits are gone, and nothing else differs. -/
def droppedMsg (m : FMsg) (s t : State) : Prop :=
  t = { s with fab := { s.fab with dropped := s.fab.dropped + 1, links := t.fab.links } } ∧ served m s t

/-- A well-formed message of op `op` for this package stands at the front of a buffer, from a node of its domain that is not LOST. -/
def arrives (op : Nat) (m : FMsg) (s : State) : Prop :=
  m.op.toNat = op ∧ (s.portOf m).isSome = true ∧ m.reserved = false ∧ (op ≠ 3 → m.aop = 0) ∧ (op ≠ 4 → m.poison = false) ∧ m.size.toNat ≤ 128 ∧ s.fab.node = some m.dst ∧ m.src.toNat / 64 = m.dst.toNat / 64
    ∧ ((s.peer m.src.toNat).node = m.src.toNat → (s.peer m.src.toNat).state = 3 → op = 9)

/-- A request whose tag has not been answered before, from a requester with few answers kept. -/
def firstTime (m : FMsg) (s : State) : Prop :=
  (s.keptOf m.src.toNat).find (65536 * m.src.toNat + m.tag.toNat) = none ∧ (s.keptOf m.src.toNat).length < 65536

/-- Request `m` is served and answered, with op `op`, its bytes and its poison mark: the answer is kept for its tag, and is sent or waits to be
sent, after HITs of what it stored. -/
def answers (m : FMsg) (op : Nat) (data : List Byte) (poison : Bool) (s t : State) : Prop :=
  served m s t ∧ ∃ hits a, (t.fab.sent ++ t.fab.out).Perm (a :: hits ++ s.fab.sent ++ s.fab.out) ∧ (∀ h, h ∈ hits → h.op = 7) ∧ t.fab.kept.find (65536 * m.src.toNat + m.tag.toNat) = some a
    ∧ a.op.toNat = op ∧ a.dst = m.src ∧ a.tag = m.tag ∧ a.data = data ∧ a.poison = poison

/-- Package memory holds `bs` from `a` up, and every other byte of it stands. -/
def physHolds (a : Nat) (bs : List Byte) (s t : State) : Prop :=
  t.mem.bytes a bs.length = bs ∧ ∀ k, k < a ∨ a + bs.length ≤ k → t.mem.get k = s.mem.get k

end Sys2Proof.Claims

/-- R351, R355 to R358, R361: what the home does with a request that its ranges open, what an answer does at the requester, a
request that the ranges do not open, and a message that is not well-formed. That an UP peer seen with a new incarnation goes to LOST, its
registrations with it, is the model's choice (log entry 51, DEDUCED), and so is which watches a HIT reaches by its tag (log entry 51, DESIGN
CHOICE). -/
def Obligations.FabricMessagesAct : Prop :=
  ∀ (s : State) (m : FMsg),
    let src := m.src.toNat
    let a := m.addr.toNat
    let line := a / 64 * 64
    let key := 65536 * src + m.tag.toNat
    let tags := State.hitReach s.fab.watching src line m.tag.toNat
    let answered (t : State) : Prop := served m s t ∧ ∀ r, s.fab.reqs.find key = some r → r.answer = none → (∀ n, r.who ≠ .ring n) →
      t.fab.reqs.find key = (match r.who with | .gone _ => none | _ => some { r with answer := some m }) ∧ ∀ i, i ≠ key → t.fab.reqs.find i = s.fab.reqs.find i
    (arrives 1 m s → firstTime m s → s.openTo m m.size.toNat = true → ∃ t, exec (.fabricRead m) s = .next t ∧ t.mem = s.mem
      ∧ answers m 4 (s.mem.bytes a m.size.toNat) (s.mem.bad 8 a m.size.toNat) s t)
    ∧ (arrives 1 m s → firstTime m s → s.openTo m m.size.toNat = false → ∃ t, exec (.fabricRead m) s = .next t ∧ t.mem = s.mem ∧ answers m 10 [1] false s t)
    ∧ (arrives 2 m s → firstTime m s → s.openTo m m.data.length = true → ∃ t, exec (.fabricWrite m) s = .next t ∧ physHolds a m.data s t ∧ answers m 5 [] false s t)
    ∧ (∀ old, (s.keptOf m.src.toNat).find key = some old → (s.keptOf m.src.toNat).length < 65536 → old.dst = m.src →
      let again (i : Instr) : Prop := ∃ t, exec i s = .next t ∧ t.mem = s.mem ∧ (t.fab.sent ++ t.fab.out).Perm (old :: s.fab.sent ++ s.fab.out)
      (arrives 1 m s → again (.fabricRead m)) ∧ (arrives 2 m s → again (.fabricWrite m)) ∧ (arrives 3 m s → again (.fabricAtomic m)))
    ∧ (∀ op, arrives 3 m s → firstTime m s → Aop.ofCode m.aop.toNat = some op → m.aop ≠ 9 → s.openTo m m.size.toNat = true → s.mem.bad 8 a m.size.toNat = false →
      ∃ t, exec (.fabricAtomic m) s = .next t ∧ answers m 4 (s.mem.bytes a m.size.toNat) false s t
        ∧ physHolds a (toBytes m.size.toNat (aopApply op (8 * m.size.toNat) (s.mem.num a m.size.toNat) (numAt m.data 0 m.size.toNat))) s t)
    ∧ (arrives 4 m s → ∃ t, exec (.fabricData m) s = .next t ∧ answered t) ∧ (arrives 5 m s → ∃ t, exec (.fabricAck m) s = .next t ∧ answered t)
    ∧ (arrives 10 m s → ∃ t, exec (.fabricErr m) s = .next t ∧ answered t)
    ∧ (arrives 6 m s → firstTime m s → s.openTo m 1 = true → s.fab.regs.length < 65536 → ∃ t, exec (.fabricWatch m) s = .next t
      ∧ answers m 4 (s.mem.bytes line 64) (s.mem.bad 8 line 64) s t ∧ (src, line, m.tag.toNat, false) ∈ t.fab.regs ∧ ∀ r, ¬ (r.1 = src ∧ r.2.1 = line) → (r ∈ t.fab.regs ↔ r ∈ s.fab.regs))
    ∧ (arrives 7 m s → ∃ t, exec (.fabricHit m) s = .next t ∧ served m s t ∧ (∀ b j x, (s.block b).beams.find j = some x → t.beamAt b j = { x with watch := x.watch.map (fun e =>
        if e.loc = { sp := .remote src, addr := line } ∧ e.tag ∈ tags then (if e.ovf then { e with signalled := true } else { e with hit := true }) else e) })
      ∧ (∀ w, w ∈ t.fab.watching ↔ w ∈ s.fab.watching ∧ ¬ (w.1 = src ∧ w.2.1 = line ∧ w.2.2 ∈ tags))
      ∧ ∀ i q b j, s.fab.reqs.find i = some q → q.who = .watch b j → q.msg.op = 6 → q.msg.dst = m.src → q.msg.addr.toNat / 64 * 64 = line → q.msg.tag.toNat ∈ tags → t.fab.reqs.find i = some { q with hit := true })
    ∧ (arrives 8 m s → ∃ t, exec (.fabricUnwatch m) s = .next t ∧ served m s t ∧ ∀ r, r ∈ t.fab.regs ↔ r ∈ s.fab.regs ∧ ¬ (r.1 = src ∧ r.2.1 = line))
    ∧ (∀ p, arrives 9 m s → s.peer src = p → p.node = src →
      (p.state = 2 → BitVec.ofNat 64 (numAt m.data 0 8) = p.inc → ∃ t, exec (.heartbeat m) s = .next t ∧ t.peer src = { p with state := 1, since := s.now })
      ∧ (p.state = 3 → BitVec.ofNat 64 (numAt m.data 0 8) ≠ p.inc → ∃ t, exec (.heartbeat m) s = .next t
        ∧ t.peer src = { p with state := 1, since := s.now, inc := BitVec.ofNat 64 (numAt m.data 0 8) })
      ∧ (p.state = 1 → BitVec.ofNat 64 (numAt m.data 0 8) ≠ p.inc → ∃ t, exec (.heartbeat m) s = .next t ∧ (t.peer src).state = 3 ∧ ∀ r, r ∈ t.fab.regs → r.1 ≠ src))
    ∧ ((s.portOf m).isSome = true → m.op = 0 ∨ 10 < m.op.toNat ∨ m.reserved = true → ∃ t, exec (.unknownOpMessage m) s = .next t ∧ droppedMsg m s t)
    ∧ ((s.portOf m).isSome = true → m.op = 2 → m.reserved = true ∨ m.aop ≠ 0 ∨ m.poison = true → ∃ t, exec (.fabricWrite m) s = .next t ∧ droppedMsg m s t)

/-- R350 to R354, R358, R361, R298, R166: links, peers and management of the fabric, and the host's accesses through CXL. -/
def Obligations.FabricLinksAndHost : Prop :=
  ∀ (s : State) (port node : Nat) (f : Flit) (bits : BitVec 4) (data : List Byte) (a : Nat),
    let l := s.link port
    let p := s.peer node
    let onlyFab (t : State) : Prop := t = { s with fab := t.fab }
    let kept : List Flit := l.unacked.filter (fun x => !decide ((f.ack - x.lseq).toNat < 1024))
    let stray : Bool := !f.head && !(f.vc = 3) && !State.openMsg (l.rx.get f.vc.toNat [])
    let sentTo (i : Nat) : List Nat := (s.unansweredTo i).filter (fun k => !s.fab.out.any (fun m => isRequest m.op.toNat && State.reqKey m = k))
    let key (x : Flit) : BitVec 11 × BitVec 2 × Bool × List Byte := (x.lseq, x.vc, x.head, x.body)
    (crcGood f = false → ∃ t, exec (.linkReplay port f) s = .next t ∧ onlyFab t ∧ t.link port = ({ l with nak := true } : Link).sendIdle)
    ∧ (crcGood f = true → f.idle = false → f.lseq.toNat = l.expect → (l.rx.get f.vc.toNat []).length < 64 → s.fab.out = [] → ∃ t, exec (.linkReplay port f) s = .next t
      ∧ (t.link port).expect = (l.expect + 1) % 2048 ∧ (t.link port).acked = l.expect ∧ (t.link port).nak = false ∧ (t.link port).xoffIn = f.xoff
      ∧ (t.link port).rx.get f.vc.toNat [] = (if f.vc = 3 then [] else if stray then l.rx.get f.vc.toNat [] else l.rx.get f.vc.toNat [] ++ [f])
      ∧ (∀ n, stray = false → s.flitFrom port f = some n → (s.peer n).node = n → (t.peer n).last = s.now) ∧ (t.link port).unacked.map key = kept.map key
      ∧ ∃ idle : List Flit, (∀ x, x ∈ idle → x.idle = true) ∧ (t.link port).tx.map key = l.tx.map key ++ (if f.nak then kept.map key else []) ++ idle.map key)
    ∧ (crcGood f = true → f.idle = false → f.lseq.toNat = l.expect → 64 ≤ (l.rx.get f.vc.toNat []).length → ∃ t, exec (.linkRetrain port f) s = .next t
      ∧ (t.link port).retrains = l.retrains + 1 ∧ (t.link port).nak = false ∧ (t.link port).expect = 0 ∧ (t.link port).acked = 2047
      ∧ ∀ e, e ∈ s.fab.reqs → e.2.answer = none → s.fab.routes.find e.2.msg.dst.toNat = some port → e.2.msg ∈ t.fab.sent ++ t.fab.out)
    ∧ (s.fab.out = [] → ∃ t, exec (.xoff port bits) s = .next t ∧ t.link port = { l with xoffIn := bits } ∧ ∀ q, q ≠ port → t.link q = s.link q)
    ∧ (∀ m : FMsg, s.fab.out = [m] → s.fab.turning = [] → (s.peer m.dst.toNat).state ≠ 2 → s.fab.routes.find m.dst.toNat = some port → s.fab.ports.getLsbD port = true →
      l.unacked.length + flitsOf m ≤ 1024 → ∃ t, exec (.xoff port bits) s = .next t
        ∧ if bits.getLsbD (channelOf m.op.toNat) = true then t.fab.out = [m] ∧ t.fab.sent = s.fab.sent else t.fab.out = [] ∧ t.fab.sent = s.fab.sent ++ [m])
    ∧ (∃ t, exec (.portDown port) s = .next t
      ∧ (∀ i, s.fab.routes.find i = some port → sentTo i ≠ [] → (i, sentTo i) ∈ t.fab.turning) ∧ (∀ i, i < 16 → t.fab.ports.getLsbD i = (s.fab.ports.getLsbD i && i != port % 16))
      ∧ (∀ q, (∀ i, i < q → t.fab.ports.getLsbD i = false) → t.fab.ports.getLsbD q = true → ∀ i r, s.fab.routes.find i = some r → t.fab.routes.find i = some (if r = port then q else r))
      ∧ (t.fab.ports = 0 → (∀ e, e ∈ t.fab.routes → e.2 ≠ port) ∧ ∀ i, s.fab.routes.find i = some port → (s.peer i).node = i → (t.peer i).noRoute = some s.now))
    ∧ (p.node = node → p.state = 1 → p.last + 1000 ≤ s.now → ∃ t, exec (.peerRecovering node) s = .next t ∧ t.peer node = { p with state := 2, since := s.now })
    ∧ (∀ u, p.node = node → p.state = 1 → p.noRoute = some u → u + 1000 ≤ s.now → ∃ t, exec (.peerRecovering node) s = .next t ∧ t.peer node = { p with state := 2, since := s.now })
    ∧ (p.node = node → p.state = 2 → p.since + s.fab.limit ≤ s.now → ∃ t, exec (.peerLost node) s = .next t ∧ (t.peer node).state = 3
      ∧ (∀ r, r ∈ t.fab.regs → r.1 ≠ node) ∧ ∀ e, e ∈ t.maps → ¬ (e.2.stage2 = true ∧ e.2.tkind = 2 ∧ e.2.node = node))
    ∧ (∀ i q n, s.fab.node = some n → s.fab.beat + 200 ≤ s.now → s.fab.peers = [(i, q)] → q.state ≠ 0 → q.node < 4096 → ∃ t, exec .heartbeatSend s = .next t ∧ t.fab.beat = s.now
      ∧ if q.node / 64 = n.toNat / 64 then ∃ h, (t.fab.sent ++ t.fab.out).Perm (h :: s.fab.sent ++ s.fab.out) ∧ h.op = 9 ∧ h.dst = BitVec.ofNat 12 q.node ∧ h.data = toBytes 8 s.fab.inc.toNat
        else t.fab.sent = s.fab.sent ∧ t.fab.out = s.fab.out)
    ∧ (∀ n : BitVec 12, ∃ t, exec (.fabricManagement (.assign n)) s = .next t ∧ t = { s with fab := { s.fab with node := some n } })
    ∧ (port < 16 → ∃ t, exec (.fabricManagement (.route node port)) s = .next t ∧ t.fab.routes.find node = some port ∧ (∀ i, i ≠ node → t.fab.routes.find i = s.fab.routes.find i)
      ∧ ∀ q, s.fab.routes.find node = some q → q ≠ port → sentTo node ≠ [] → (node, sentTo node) ∈ t.fab.turning)
    ∧ (100 ≤ a → a ≤ 60000 → ∃ t, exec (.fabricManagement (.recoveryLimit a)) s = .next t ∧ t = { s with fab := { s.fab with limit := 100000 * a } })
    ∧ (∀ n, s.fab.node = some n → p.state = 0 → node / 64 = n.toNat / 64 → ∃ t, exec (.fabricManagement (.configure node)) s = .next t ∧ onlyFab t
      ∧ t.peer node = { state := 3, node := node, last := s.now, since := s.now, noRoute := if (s.fab.routes.find node).isSome then none else some s.now })
    ∧ (∀ n, s.fab.node = some n → node / 64 ≠ n.toNat / 64 → exec (.fabricManagement (.configure node)) s = .next s)
    ∧ (∃ t, exec (.fabricManagement (.openRange node a port)) s = .next t ∧ t = { s with fab := { s.fab with opened := s.fab.opened ++ [(node, a, port)] } })
    ∧ (∃ t, exec (.fabricManagement (.train port)) s = .next t ∧ ∀ i, i < 16 → t.fab.ports.getLsbD i = (s.fab.ports.getLsbD i || i == port % 16))
    ∧ (physOk a data.length = true → ∃ t, exec (.hostCxlMemAccess a true data) s = .next t ∧ physHolds a data s t ∧ t.host = s.host)
    ∧ (∃ t, exec (.hostCxlMemAccess a false data) s = .next t ∧ t = s)
    ∧ (∃ t, exec (.cxlCacheSnoop a data) s = .next t ∧ t.mem = s.mem ∧ t.host.bytes a data.length = data ∧ ∀ k, k < a ∨ a + data.length ≤ k → t.host.get k = s.host.get k)

namespace Sys2Proof.Claims

/-- The words of the Lantern, which share bit patterns with the scalar words and are fetched from elsewhere. -/
def isLantern : Instr → Bool
  | .glde _ _ | .gldc _ _ | .gadd _ _ _ | .gaddImm _ _ _ | .gsub _ _ _ | .gsubImm _ _ _ | .gand _ _ _ | .gandImm _ _ _ | .gor _ _ _ | .gorImm _ _ _
  | .gshl _ _ _ | .gshlImm _ _ _ | .gshr _ _ _ | .gshrImm _ _ _ | .gmin _ _ _ | .gminImm _ _ _ | .gmax _ _ _ | .gmaxImm _ _ _ | .gskip _ _ _ _
  | .ghist _ _ _ | .gsketch _ _ _ | .gcount _ _ | .gsample _ _ _ | .gtrig _ _ _ | .gend => true
  | _ => false

/-- The memories of the package and of the host are in canonical form. -/
def memoryForm (s : State) : Prop := s.mem.wf = true ∧ s.host.wf = true

end Sys2Proof.Claims

/-- A step runs the decoded instruction: the turn at the head of the agenda fetches the scalar word at SPC, the lane word at a
unit's PC, the Lantern's next word, or takes an event, and runs it by `exec`; around it stand the skid count (R215), what a lane word's end
does to its unit, and the deadlock check. The clauses that what the beam has left to be performed later is performed before the word issues
are the model's choice: accepted barrier-object updates before a scalar word that makes none (log entry 33, DEDUCED), late stores before a
word that orders them (log entry 20, DESIGN CHOICE); so is which accesses a turn leaves for later. A debugger's step ends with its word (R226). -/
def Obligations.StepRunsDecodedWord : Prop :=
  ∀ (s : State) (r : List Turn) (i : Instr),
    let s0 : State := { s with agenda := r }
    (s.agenda = .event i :: r → step s = exec i s0)
    ∧ (∀ d f w, s.agenda = .lantern d :: r → (s.lantern d).run = some f → ((s.filters.get f default).words)[(s.lantern d).wordIx]? = some w →
      decodeLantern w.toNat = some i → step s = exec i { s0 with cur := { die := d } })
    ∧ (∀ b j k x w later, s.agenda = (if later then .scalarLater b j else .scalar b j) :: r → s.blocks.find b = some k → k.beams.find j = some x → s0.mayScalar b j = true →
      ((s.codeOf b).scode)[x.spc.toNat]? = some w → decodeScalar w.toNat = .ok i →
      let s1 : State := { s0 with cur := { blk := b, beam := j, fmode := x.fmode } }
      let s2 : State := s1.orderLate false b j i
      let s3 : State := if State.isBoUpdate i then s2 else s2.drainBo b j
      step s = match exec i (if later && State.isPlainStore i then s3.setCur (fun c => { c with later := 1 }) else s3) with
        | .next u => .next (((State.scalarEnd b j s0 u).settle b).stepEnd b j false (u.cur.flow = .go && (u.beamAt b j).spark = .none))
        | o => o)
    ∧ (∀ b j u k x y g gs w pred neg yb lanes, (s.agenda = .laneLater b j u lanes :: r ∨ s.agenda = .lane b j u :: r ∧ lanes = 0) → s.blocks.find b = some k → k.beams.find j = some x → s0.mayLane b j u = true →
      x.unit u = some y → y.held = none → x.regions = g :: gs → ((s.codeOf b).lcode)[y.pc.toNat]? = some w →
      let s1 : State := { s0 with cur := { blk := b, beam := j, unit := u, slot := 0, fmode := g.fmode } }
      s1.laneErr w.toNat = .ok { pred := pred, neg := neg, y := yb, body := .one i } → uqFields i = [] → (∀ z, i ≠ .lpart z) →
      let act := (y.mask &&& (if neg then ~~~(s1.rp pred.toNat) else s1.rp pred.toNat)) &&& ~~~x.dead
      let s2 : State := (s1.orderLate true b j i).setCur (fun c => { c with act := act })
      State.accessMasked s2 0 [] i = none → (State.isPref i = true ∨ boundsCause s2 i = none) →
      step s = match exec i ((s2.setMe (fun x => { x with uqneed := 0 })).setCur (fun c => { c with later := lanes })) with
        | .next t => .next (((State.finishLane b j u s0 (t.setCur (fun c => { c with old := none }))).settle b).stepEnd b j true
            (t.cur.flow = .go || t.cur.flow = .jumped || (State.parkedUnit (t.beamAt b j) u && (State.heldOf (t.beamAt b j) u).isNone)))
        | o => o)

/-- R42 to R55: words that the spec writes out decode to the instructions it says. -/
def Obligations.SpecWordsDecode : Prop :=
  let op (d a b : BitVec 9) (c : BitVec 9) (m : BitVec 10) (imm : W32) : LaneOp := { long := true, d := d, a := a, b := b, c := c, m := m, imm := imm }
  let short (d : BitVec 9) : LaneOp := { long := false, d := d, a := 322, b := 0, c := 0, m := 0, imm := 0 }
  decodeScalar 0x04A00000 = .ok (.saddi 5 0 0) ∧ decodeScalar 0x4081C010 = .ok (.sld 4 1 .w64 16) ∧ decodeScalar 0x44E6C000 = .ok (.sst 7 6 .w64 0)
  ∧ decodeScalar 0x6098_1FFA = .ok (.sb .ne 6 0 (-6)) ∧ decodeScalar 0xE4090001 = .ok (.boinit 9 0 1) ∧ decodeScalar 0x48A6385D = .ok (.samo 5 6 7 .add .w64 .ar .pkg)
  ∧ decodeScalar 0xAC000000 = .ok .eret ∧ decodeScalar 0x94000002 = .ok (.rclaim 2)
  ∧ decodeLane 0x1020C0601A00080000000000 = .ok { pred := 1, neg := false, y := false, body := .one (.ffma (op 3 1 320 2 0 0)) }
  ∧ decodeLane 0xF0060114_20000060_13420000 = .ok { pred := 7, neg := false, y := false, body := .two (.imov (short 8)) (.imov (short 9)) }
  ∧ decodeLane 0x7020C140_10100D51_00000000 = .ok { pred := 7, neg := false, y := false, body := .one (.ffma (op 10 1 2 3 0x151 0)) }
  ∧ decodeLane 0x70600040_1A180002_00000003 = .ok { pred := 7, neg := false, y := false, body := .one (.shfl (op 2 1 323 0 2 3)) }
  ∧ decodeLane 0x708000D4_00043002_00000000 = .ok { pred := 7, neg := false, y := false, body := .one (.ld (op 6 320 0 0x10C 2 0)) }
  ∧ decodeLane 0x7070C015_20000000_00200007 = .ok { pred := 7, neg := false, y := false, body := .one (.lbrk (op 0 338 0 0 0 0x200007)) }
  ∧ decodeLane 0x70A080A0_00000013_00000000 = .ok { pred := 7, neg := false, y := false, body := .one (.sefence (op 5 0 0 0 0x13 0)) }
  ∧ decodeLane 0x10B08281_5A105810_00000000 = .ok { pred := 1, neg := false, y := false, body := .one (.mstr (op 20 21 322 22 0x10 0)) }
  ∧ decodeLane 0x70C04000_10100005_00000000 = .ok { pred := 7, neg := false, y := false, body := .one (.lmark (op 0 1 2 0 5 0)) }
  ∧ decodeLantern 0x58280000 = some (.ghist 1 2 0)

/-- R42 to R49, R55: no bit of an encoding is dropped: every well-formed instruction that is written as one word of 32 bits is
what its word decodes to, and so is every lane word, of one operation or of two short ones, with any predicate. -/
def Obligations.DecodeOfEncode : Prop :=
  (∀ (i : Instr) (w : Nat), i.wf = true → encode32 i = some w → w < 2 ^ 32 ∧ (if isLantern i then decodeLantern w = some i else decodeScalar w = .ok i))
  ∧ (∀ (i : Instr), isLantern i = true → ∃ w, encode32 i = some w)
  ∧ (∀ (i : Instr) (p : BitVec 3) (n y : Bool), i.wf = true → i.longForm = true →
      ∃ w, LaneWord.encode { pred := p, neg := n, y := y, body := .one i } = some w ∧ w < 2 ^ 96 ∧ decodeLane w = .ok { pred := p, neg := n, y := y, body := .one i })
  ∧ (∀ (i j : Instr) (p : BitVec 3) (n y : Bool), i.wf = true → j.wf = true → i.laneOp.isSome = true → j.laneOp.isSome = true → i.longForm = false → j.longForm = false →
      ∃ w, LaneWord.encode { pred := p, neg := n, y := y, body := .two i j } = some w ∧ w < 2 ^ 96 ∧ decodeLane w = .ok { pred := p, neg := n, y := y, body := .two i j })

/-- Every step keeps package memory and host memory in canonical form: addresses strictly rise, no listed byte is zero, and
the poisoned units strictly rise. -/
def Obligations.StepKeepsMemoryForm : Prop :=
  ∀ (s t : State), memoryForm s → step s = .next t → memoryForm t

/-- R330, R369: what reset leaves: both memories in canonical form, with nothing listed, nothing placed and nothing converged,
the pages of each die in its clean pool; PACKAGE_RESET leaves the same, but for what is the host's and the model's own. -/
def Obligations.ResetState : Prop :=
  memoryForm State.reset ∧ State.reset.mem = {} ∧ State.reset.host = {} ∧ State.reset.blocks = [] ∧ State.reset.tasks = [] ∧ State.reset.ctxs = [] ∧ State.reset.maps = []
  ∧ State.reset.recon.root = none ∧ State.reset.recon.dsrroot = 0 ∧ State.reset.recon.rooted = false ∧ (∀ d, d < 4 → (State.reset.die d).clean = [(d * 0x400000, 2197265)] ∧ (State.reset.die d).scrubq = [])
  ∧ ∀ s : State, ∃ t, exec .packageReset s = .next t ∧ t.resets = s.resets + 1 ∧ t.host = s.host ∧ t.mem = {} ∧ t.blocks = [] ∧ t.tasks = [] ∧ t.ctxs = [] ∧ t.maps = []
      ∧ t.progs = [] ∧ t.recon = State.reset.recon ∧ t.dies = State.reset.dies ∧ t.agenda = s.agenda
end

