-- ==== Sys2Proof/Laws/Tab.lean ====
section
/-! SUPPORT. What each operation on a number-keyed table does to a lookup, and what keeps the canonical form of a memory. -/

namespace Sys2Proof.Machine

variable {α : Type}

@[simp] theorem Tab.get_nil (k : Nat) (d : α) : Tab.get ([] : Tab α) k d = d := rfl
@[simp] theorem Tab.find_nil (k : Nat) : Tab.find ([] : Tab α) k = none := rfl

/-- A lookup is the entry found, or the default. -/
theorem Tab.get_eq (t : Tab α) (k : Nat) (d : α) : Tab.get t k d = (Tab.find t k).getD d := by
  induction t with
  | nil => rfl
  | cons e r ih => obtain ⟨j, a⟩ := e; by_cases h : j = k <;> simp [Tab.get, Tab.find, h, ih]

theorem Tab.find_put (t : Tab α) (k i : Nat) (a : α) : Tab.find (Tab.put t k a) i = if i = k then some a else Tab.find t i := by
  induction t with
  | nil => simp [Tab.put, Tab.find, eq_comm]
  | cons e r ih =>
    obtain ⟨j, b⟩ := e
    unfold Tab.put
    split
    · rename_i hj; subst hj; by_cases h : i = j <;> simp [Tab.find, h, eq_comm]
    · split <;> by_cases h : i = k <;> simp_all [Tab.find, eq_comm]

@[simp] theorem Tab.find_put_same (t : Tab α) (k : Nat) (a : α) : Tab.find (Tab.put t k a) k = some a := by simp [Tab.find_put]

theorem Tab.find_put_other (t : Tab α) {k i : Nat} (a : α) (h : i ≠ k) : Tab.find (Tab.put t k a) i = Tab.find t i := by
  simp [Tab.find_put, h]

theorem Tab.get_put (t : Tab α) (k i : Nat) (a d : α) : Tab.get (Tab.put t k a) i d = if i = k then a else Tab.get t i d := by
  simp only [Tab.get_eq, Tab.find_put]; split <;> rfl

@[simp] theorem Tab.get_put_same (t : Tab α) (k : Nat) (a d : α) : Tab.get (Tab.put t k a) k d = a := by simp [Tab.get_put]

theorem Tab.get_put_other (t : Tab α) {k i : Nat} (a d : α) (h : i ≠ k) : Tab.get (Tab.put t k a) i d = Tab.get t i d := by
  simp [Tab.get_put, h]

theorem Tab.find_del (t : Tab α) (k i : Nat) : Tab.find (Tab.del t k) i = if i = k then none else Tab.find t i := by
  induction t with
  | nil => simp [Tab.del, Tab.find]
  | cons e r ih =>
    obtain ⟨j, b⟩ := e
    simp only [Tab.del] at ih ⊢
    by_cases hj : j = k
    · subst hj; by_cases h : i = j
      · subst h; simpa using ih
      · simpa [Tab.find, h, Ne.symm h] using ih
    · by_cases h : i = k
      · subst h; simpa [Tab.find, hj] using ih
      · simp only [h, if_false] at ih ⊢
        simp [Tab.find, hj, ih]

theorem Tab.get_del (t : Tab α) (k i : Nat) (d : α) : Tab.get (Tab.del t k) i d = if i = k then d else Tab.get t i d := by
  simp only [Tab.get_eq, Tab.find_del]; split <;> rfl

theorem Tab.find_upd (t : Tab α) (k i : Nat) (f : α → α) : Tab.find (Tab.upd t k f) i = if i = k then (Tab.find t i).map f else Tab.find t i := by
  induction t with
  | nil => simp [Tab.upd, Tab.find]
  | cons e r ih =>
    obtain ⟨j, b⟩ := e
    simp only [Tab.upd, List.map_cons] at ih ⊢
    by_cases hj : j = k
    · subst hj; by_cases h : i = j
      · subst h; simp [Tab.find]
      · simpa [Tab.find, h, Ne.symm h] using ih
    · by_cases hi : j = i
      · subst hi; simp [Tab.find, hj]
      · simpa [Tab.find, hj, hi] using ih

theorem Tab.find_mapV (t : Tab α) (f : Nat → α → α) (i : Nat) : Tab.find (Tab.mapV t f) i = (Tab.find t i).map (f i) := by
  induction t with
  | nil => rfl
  | cons e r ih =>
    obtain ⟨j, b⟩ := e
    simp only [Tab.mapV, List.map_cons] at ih ⊢
    by_cases h : j = i
    · subst h; simp [Tab.find]
    · simpa [Tab.find, h] using ih

theorem Tab.get_mapV (t : Tab α) (f : Nat → α → α) (i : Nat) (d : α) (hd : f i d = d) : Tab.get (Tab.mapV t f) i d = f i (Tab.get t i d) := by
  simp only [Tab.get_eq, Tab.find_mapV]; cases Tab.find t i <;> simp [hd]

/-! ### The canonical form of a memory -/

theorem rising_tail {c : Host.Cell} {r : List Host.Cell} (h : rising (c :: r) = true) : rising r = true := by
  simp only [rising, Bool.and_eq_true] at h; exact h.2

theorem rising_filter (p : Host.Cell → Bool) (l : List Host.Cell) (h : rising l = true) :
    rising (l.filter p) = true ∧ ∀ a, (∀ c ∈ l, a < c.1) → ∀ c ∈ l.filter p, a < c.1 := by
  refine ⟨?_, fun a ha c hc => ha c ((List.mem_filter.1 hc).1)⟩
  induction l with
  | nil => rfl
  | cons c r ih =>
    have low : ∀ (r : List Host.Cell) (c : Host.Cell), rising (c :: r) = true → ∀ e ∈ r, c.1 < e.1 := by
      intro r
      induction r with
      | nil => simp
      | cons x y ihr =>
        intro c hc e he
        simp only [rising, Bool.and_eq_true, decide_eq_true_eq] at hc
        rcases List.mem_cons.1 he with rfl | he
        · exact hc.1
        · exact Nat.lt_trans hc.1 (ihr x (by simpa [rising] using hc.2) e he)
    have hr := ih (rising_tail h)
    by_cases hp : p c = true
    · simp only [List.filter_cons, hp, if_true, rising, Bool.and_eq_true, hr, and_true]
      cases hf : r.filter p with
      | nil => rfl
      | cons e _ =>
        simp only [decide_eq_true_eq]
        exact low r c h e ((List.mem_filter.1 (hf ▸ List.mem_cons_self .. : e ∈ r.filter p)).1)
    · simpa [List.filter_cons, hp] using hr

theorem rising_put (l : List Host.Cell) (k : Nat) (b : Byte) (h : rising l = true) (hk : ∀ c ∈ l, c.1 ≠ k) : rising (Tab.put l k b) = true := by
  induction l with
  | nil => rfl
  | cons c r ih =>
    obtain ⟨j, x⟩ := c
    have hj : j ≠ k := hk (j, x) (List.mem_cons_self ..)
    unfold Tab.put
    rw [if_neg hj]
    split
    · rename_i hlt
      simp only [rising, Bool.and_eq_true, decide_eq_true_eq] at h ⊢
      exact ⟨hlt, h⟩
    · rename_i hlt
      have hr := ih (rising_tail h) (fun c hc => hk c (List.mem_cons_of_mem _ hc))
      simp only [rising, Bool.and_eq_true, hr, and_true]
      cases r with
      | nil => simpa [Tab.put] using (by omega : j < k)
      | cons e q =>
        obtain ⟨i, y⟩ := e
        simp only [rising, Bool.and_eq_true, decide_eq_true_eq] at h
        by_cases h1 : i = k
        · simpa [Tab.put, h1] using (by omega : j < k)
        · by_cases h2 : k < i
          · simpa [Tab.put, h1, h2] using (by omega : j < k)
          · simpa [Tab.put, h1, h2] using h.1

theorem Tab.mem_del {l : Tab α} {k : Nat} {c : Nat × α} (h : c ∈ Tab.del l k) : c ∈ l ∧ c.1 ≠ k := by
  simpa [Tab.del] using h

theorem Tab.mem_put {l : Tab α} {k : Nat} {a : α} {c : Nat × α} (h : c ∈ Tab.put l k a) : c = (k, a) ∨ c ∈ l := by
  induction l with
  | nil => simpa [Tab.put] using h
  | cons e r ih =>
    obtain ⟨j, x⟩ := e
    unfold Tab.put at h
    split at h
    · rcases List.mem_cons.1 h with h | h
      · exact .inl h
      · exact .inr (List.mem_cons_of_mem _ h)
    · split at h
      · rcases List.mem_cons.1 h with h | h
        · exact .inl h
        · exact .inr h
      · rcases List.mem_cons.1 h with h | h
        · exact .inr (h ▸ List.mem_cons_self ..)
        · rcases ih h with h | h
          · exact .inl h
          · exact .inr (List.mem_cons_of_mem _ h)

theorem Memory.wf_iff (m : Memory) : m.wf = true ↔ rising m.cells = true ∧ (∀ c ∈ m.cells, c.2 ≠ 0) ∧ risingNat m.poison = true ∧ ∀ c ∈ m.cells, undefAt m.undef c.1 = none := by
  simp [Memory.wf, and_assoc]

/-- What a cut leaves undefined: the addresses outside it, as before. -/
theorem undefAt_cut (a n : Nat) (l : List (Nat × Nat × Nat)) (i : Nat) : undefAt (cutUndef a n l) i = if a ≤ i ∧ i < a + n then none else undefAt l i := by
  induction l with
  | nil => simp [cutUndef, undefAt]
  | cons e r ih =>
    obtain ⟨x, m, k⟩ := e
    unfold cutUndef
    split <;> (try split) <;> (try split) <;> simp only [List.cons_append, List.nil_append, undefAt, ih] <;> (repeat' split) <;> (first | rfl | omega)

/-- A cut leaves nothing undefined that was not. -/
theorem undefAt_cut_none {a n : Nat} {l : List (Nat × Nat × Nat)} {i : Nat} (h : undefAt l i = none) : undefAt (cutUndef a n l) i = none := by
  rw [undefAt_cut]; split <;> simp [h]

/-- Storing one byte keeps the canonical form. -/
theorem Memory.wf_set (m : Memory) (a : Nat) (b : Byte) (h : m.wf = true) : (m.set a b).wf = true := by
  rw [Memory.wf_iff] at h ⊢
  have hd := (rising_filter (fun e => e.1 != a) m.cells h.1).1
  unfold Memory.set
  by_cases hb : b = 0
  · simp only [hb, if_true]
    exact ⟨hd, fun c hc => h.2.1 c (Tab.mem_del hc).1, h.2.2.1, fun c hc => undefAt_cut_none (h.2.2.2 c (Tab.mem_del hc).1)⟩
  · simp only [hb, if_false]
    refine ⟨rising_put _ a b hd (fun c hc => (Tab.mem_del hc).2), fun c hc => ?_, h.2.2.1, fun c hc => ?_⟩
    · rcases Tab.mem_put hc with rfl | hc
      · exact hb
      · exact h.2.1 c (Tab.mem_del hc).1
    · rcases Tab.mem_put hc with rfl | hc
      · rw [undefAt_cut, if_pos (by simp)]
      · exact undefAt_cut_none (h.2.2.2 c (Tab.mem_del hc).1)

/-- Storing bytes keeps the canonical form. -/
theorem Memory.wf_put (bs : List Byte) : ∀ (m : Memory) (a : Nat), m.wf = true → (m.put a bs).wf = true := by
  induction bs with
  | nil => intro m a h; simpa [Memory.put] using h
  | cons b r ih => intro m a h; exact ih _ _ (Memory.wf_set m a b h)

theorem risingNat_filter (p : Nat → Bool) (l : List Nat) (h : risingNat l = true) : risingNat (l.filter p) = true := by
  have low : ∀ (r : List Nat) (c : Nat), risingNat (c :: r) = true → ∀ e ∈ r, c < e := by
    intro r
    induction r with
    | nil => simp
    | cons x y ihr =>
      intro c hc e he
      simp only [risingNat, Bool.and_eq_true, decide_eq_true_eq] at hc
      rcases List.mem_cons.1 he with rfl | he
      · exact hc.1
      · exact Nat.lt_trans hc.1 (ihr x (by simpa [risingNat] using hc.2) e he)
  induction l with
  | nil => rfl
  | cons c r ih =>
    have hr := ih (by simp only [risingNat, Bool.and_eq_true] at h; exact h.2)
    by_cases hp : p c = true
    · simp only [List.filter_cons, hp, if_true, risingNat, Bool.and_eq_true, hr, and_true]
      cases hf : r.filter p with
      | nil => rfl
      | cons e _ =>
        simp only [decide_eq_true_eq]
        exact low r c h e ((List.mem_filter.1 (hf ▸ List.mem_cons_self .. : e ∈ r.filter p)).1)
    · simpa [List.filter_cons, hp] using hr

/-- Clearing poison by a covering store keeps the canonical form. -/
theorem Memory.wf_heal (m : Memory) (u a n : Nat) (h : m.wf = true) : (m.heal u a n).wf = true := by
  rw [Memory.wf_iff] at h ⊢
  exact ⟨h.1, h.2.1, risingNat_filter _ _ h.2.2.1, h.2.2.2⟩

/-- Dropping a range keeps the canonical form. -/
theorem Memory.wf_clear (m : Memory) (u a n : Nat) (h : m.wf = true) : (m.clear u a n).wf = true := by
  rw [Memory.wf_iff] at h ⊢
  exact ⟨(rising_filter _ _ h.1).1, fun c hc => h.2.1 c ((List.mem_filter.1 hc).1), risingNat_filter _ _ h.2.2.1,
    fun c hc => undefAt_cut_none (h.2.2.2 c ((List.mem_filter.1 hc).1))⟩

/-- A save's writing of a range keeps the canonical form. -/
theorem Memory.wf_blur (m : Memory) (u a n k : Nat) (h : m.wf = true) : (m.blur u a n k).wf = true := by
  have hc := (Memory.wf_iff _).1 (Memory.wf_clear m u a n h)
  rw [Memory.wf_iff]
  refine ⟨hc.1, hc.2.1, hc.2.2.1, fun c hm => ?_⟩
  have hr : ¬ (a ≤ c.1 ∧ c.1 < a + n) := by
    have := (List.mem_filter.1 hm).2
    simp only [Bool.not_eq_true', Bool.and_eq_false_iff, decide_eq_false_iff_not] at this
    omega
  simp only [Memory.blur, undefAt, if_neg hr]
  exact hc.2.2.2 c hm

theorem risingNat_add (k : Nat) (l : List Nat) (h : risingNat l = true) : risingNat (addRising k l) = true := by
  induction l with
  | nil => rfl
  | cons j r ih =>
    unfold addRising
    split
    · exact h
    · split
      · rename_i h1 h2
        simp only [risingNat, Bool.and_eq_true, decide_eq_true_eq] at h ⊢
        exact ⟨h2, h⟩
      · rename_i h1 h2
        have hr := ih (by simp only [risingNat, Bool.and_eq_true] at h; exact h.2)
        simp only [risingNat, Bool.and_eq_true, hr, and_true]
        cases r with
        | nil => simpa [addRising] using (by omega : j < k)
        | cons e q =>
          simp only [risingNat, Bool.and_eq_true, decide_eq_true_eq] at h
          by_cases g1 : e = k
          · simpa [addRising, g1] using (by omega : j < k)
          · by_cases g2 : k < e
            · simpa [addRising, g1, g2] using (by omega : j < k)
            · simpa [addRising, g1, g2] using h.1

/-- Poisoning a unit keeps the canonical form. -/
theorem Memory.wf_hurt (m : Memory) (k : Nat) (h : m.wf = true) : (m.hurt k).wf = true := by
  rw [Memory.wf_iff] at h ⊢
  exact ⟨h.1, h.2.1, risingNat_add k _ h.2.2.1, h.2.2.2⟩

/-- Poisoning a range keeps the canonical form. -/
theorem Memory.wf_spoil (m : Memory) (u a n : Nat) (h : m.wf = true) : (m.spoil u a n).wf = true := by
  unfold Memory.spoil
  induction List.range ((a % u + n + u - 1) / u) generalizing m with
  | nil => exact h
  | cons i r ih => exact ih _ (Memory.wf_hurt m _ h)

/-! ### Read after write -/

theorem Memory.get_set (m : Memory) (a i : Nat) (b : Byte) : (m.set a b).get i = if i = a then b else m.get i := by
  have hc : Tab.get (if b = 0 then Tab.del m.cells a else Tab.put (Tab.del m.cells a) a b) i 0 = if i = a then b else Tab.get m.cells i 0 := by
    split
    · rename_i hb; rw [Tab.get_del, hb]
    · rw [Tab.get_put, Tab.get_del]; split <;> rfl
  simp only [Memory.set, Memory.get, undefAt_cut, hc]
  by_cases hi : i = a
  · rw [if_pos (by omega)]; simp [hi]
  · rw [if_neg (by omega)]; simp [hi]

/-- A byte after a store: the stored one within its bytes, the old one elsewhere. -/
theorem Memory.get_put (bs : List Byte) : ∀ (m : Memory) (a i : Nat),
    (m.put a bs).get i = if a ≤ i ∧ i < a + bs.length then (bs[i - a]?).getD 0 else m.get i := by
  induction bs with
  | nil => intro m a i; simp only [Memory.put, List.length_nil, Nat.add_zero]; rw [if_neg (by omega)]
  | cons b r ih =>
    intro m a i
    rw [Memory.put, ih, Memory.get_set]
    rcases Nat.lt_trichotomy i a with h | h | h
    · have h1 : ¬ (a + 1 ≤ i ∧ i < a + 1 + r.length) := by omega
      have h2 : ¬ (a ≤ i ∧ i < a + (b :: r).length) := by omega
      rw [if_neg h1, if_neg h2, if_neg (by omega)]
    · subst h
      have h1 : ¬ (i + 1 ≤ i ∧ i < i + 1 + r.length) := by omega
      have h2 : i ≤ i ∧ i < i + (b :: r).length := by simp
      rw [if_neg h1, if_pos h2]; simp
    · obtain ⟨k, rfl⟩ : ∃ k, i = a + 1 + k := ⟨i - (a + 1), by omega⟩
      by_cases hk : k < r.length
      · have h1 : a + 1 ≤ a + 1 + k ∧ a + 1 + k < a + 1 + r.length := by omega
        have h2 : a ≤ a + 1 + k ∧ a + 1 + k < a + (b :: r).length := by simp; omega
        rw [if_pos h1, if_pos h2]
        have e1 : a + 1 + k - (a + 1) = k := by omega
        have e2 : a + 1 + k - a = k + 1 := by omega
        simp [e1, e2]
      · have h1 : ¬ (a + 1 ≤ a + 1 + k ∧ a + 1 + k < a + 1 + r.length) := by omega
        have h2 : ¬ (a ≤ a + 1 + k ∧ a + 1 + k < a + (b :: r).length) := by simp; omega
        rw [if_neg h1, if_neg h2, if_neg (by omega)]

theorem Memory.get_heal (m : Memory) (u a n i : Nat) : (m.heal u a n).get i = m.get i := rfl

theorem Memory.length_bytes (m : Memory) : ∀ (n a : Nat), (m.bytes a n).length = n := by
  intro n; induction n with
  | zero => intro a; rfl
  | succ n ih => intro a; simp [Memory.bytes, ih]

/-- The bytes of a range are its bytes one by one. -/
theorem Memory.bytes_congr (m k : Memory) : ∀ (n a : Nat), (∀ i, a ≤ i → i < a + n → m.get i = k.get i) → m.bytes a n = k.bytes a n := by
  intro n; induction n with
  | zero => intro a _; rfl
  | succ n ih =>
    intro a h
    simp only [Memory.bytes]
    rw [h a (Nat.le_refl a) (by omega), ih (a + 1) (fun i h1 h2 => h i (by omega) (by omega))]

/-- What was stored reads back. -/
theorem Memory.bytes_put_same (bs : List Byte) : ∀ (m : Memory) (a : Nat), (m.put a bs).bytes a bs.length = bs := by
  induction bs with
  | nil => intro m a; rfl
  | cons b r ih =>
    intro m a
    simp only [List.length_cons, Memory.bytes, Memory.put]
    rw [ih, Memory.get_put, if_neg (by omega), Memory.get_set, if_pos rfl]

end Sys2Proof.Machine
end

