-- ==== Sys2Proof/Laws/State.lean ====
section
/-! SUPPORT. What each update of the state leaves alone, field by field, and what each accessor reads after it. -/

namespace Sys2Proof.Machine.State

variable (s : State)

@[simp] theorem setBlock_mem (b : Nat) (f : Block → Block) : (s.setBlock b f).mem = s.mem := rfl
@[simp] theorem setBlock_host (b : Nat) (f : Block → Block) : (s.setBlock b f).host = s.host := rfl
@[simp] theorem setBlock_cores (b : Nat) (f : Block → Block) : (s.setBlock b f).cores = s.cores := rfl
@[simp] theorem setBlock_dies (b : Nat) (f : Block → Block) : (s.setBlock b f).dies = s.dies := rfl
@[simp] theorem setBlock_tasks (b : Nat) (f : Block → Block) : (s.setBlock b f).tasks = s.tasks := rfl
@[simp] theorem setBlock_tenants (b : Nat) (f : Block → Block) : (s.setBlock b f).tenants = s.tenants := rfl
@[simp] theorem setBlock_ctxs (b : Nat) (f : Block → Block) : (s.setBlock b f).ctxs = s.ctxs := rfl
@[simp] theorem setBlock_maps (b : Nat) (f : Block → Block) : (s.setBlock b f).maps = s.maps := rfl
@[simp] theorem setBlock_rings (b : Nat) (f : Block → Block) : (s.setBlock b f).rings = s.rings := rfl
@[simp] theorem setBlock_queues (b : Nat) (f : Block → Block) : (s.setBlock b f).queues = s.queues := rfl
@[simp] theorem setBlock_progs (b : Nat) (f : Block → Block) : (s.setBlock b f).progs = s.progs := rfl
@[simp] theorem setBlock_filters (b : Nat) (f : Block → Block) : (s.setBlock b f).filters = s.filters := rfl
@[simp] theorem setBlock_credits (b : Nat) (f : Block → Block) : (s.setBlock b f).credits = s.credits := rfl
@[simp] theorem setBlock_recon (b : Nat) (f : Block → Block) : (s.setBlock b f).recon = s.recon := rfl
@[simp] theorem setBlock_ladders (b : Nat) (f : Block → Block) : (s.setBlock b f).ladders = s.ladders := rfl
@[simp] theorem setBlock_tests (b : Nat) (f : Block → Block) : (s.setBlock b f).tests = s.tests := rfl
@[simp] theorem setBlock_ckpts (b : Nat) (f : Block → Block) : (s.setBlock b f).ckpts = s.ckpts := rfl
@[simp] theorem setBlock_fab (b : Nat) (f : Block → Block) : (s.setBlock b f).fab = s.fab := rfl
@[simp] theorem setBlock_spdm (b : Nat) (f : Block → Block) : (s.setBlock b f).spdm = s.spdm := rfl
@[simp] theorem setBlock_reftime (b : Nat) (f : Block → Block) : (s.setBlock b f).reftime = s.reftime := rfl
@[simp] theorem setBlock_clk (b : Nat) (f : Block → Block) : (s.setBlock b f).clk = s.clk := rfl
@[simp] theorem setBlock_subtick (b : Nat) (f : Block → Block) : (s.setBlock b f).subtick = s.subtick := rfl
@[simp] theorem setBlock_rr (b : Nat) (f : Block → Block) : (s.setBlock b f).rr = s.rr := rfl
@[simp] theorem setBlock_msix (b : Nat) (f : Block → Block) : (s.setBlock b f).msix = s.msix := rfl
@[simp] theorem setBlock_cur (b : Nat) (f : Block → Block) : (s.setBlock b f).cur = s.cur := rfl
@[simp] theorem setBlock_agenda (b : Nat) (f : Block → Block) : (s.setBlock b f).agenda = s.agenda := rfl
@[simp] theorem setBlock_free (b : Nat) (f : Block → Block) : (s.setBlock b f).free = s.free := rfl
@[simp] theorem setBlock_ids (b : Nat) (f : Block → Block) : (s.setBlock b f).ids = s.ids := rfl
@[simp] theorem setBlock_resets (b : Nat) (f : Block → Block) : (s.setBlock b f).resets = s.resets := rfl

@[simp] theorem setBeam_mem (b j : Nat) (f : Beam → Beam) : (s.setBeam b j f).mem = s.mem := rfl
@[simp] theorem setBeam_host (b j : Nat) (f : Beam → Beam) : (s.setBeam b j f).host = s.host := rfl
@[simp] theorem setBeam_cores (b j : Nat) (f : Beam → Beam) : (s.setBeam b j f).cores = s.cores := rfl
@[simp] theorem setBeam_dies (b j : Nat) (f : Beam → Beam) : (s.setBeam b j f).dies = s.dies := rfl
@[simp] theorem setBeam_tasks (b j : Nat) (f : Beam → Beam) : (s.setBeam b j f).tasks = s.tasks := rfl
@[simp] theorem setBeam_tenants (b j : Nat) (f : Beam → Beam) : (s.setBeam b j f).tenants = s.tenants := rfl
@[simp] theorem setBeam_ctxs (b j : Nat) (f : Beam → Beam) : (s.setBeam b j f).ctxs = s.ctxs := rfl
@[simp] theorem setBeam_maps (b j : Nat) (f : Beam → Beam) : (s.setBeam b j f).maps = s.maps := rfl
@[simp] theorem setBeam_rings (b j : Nat) (f : Beam → Beam) : (s.setBeam b j f).rings = s.rings := rfl
@[simp] theorem setBeam_queues (b j : Nat) (f : Beam → Beam) : (s.setBeam b j f).queues = s.queues := rfl
@[simp] theorem setBeam_progs (b j : Nat) (f : Beam → Beam) : (s.setBeam b j f).progs = s.progs := rfl
@[simp] theorem setBeam_filters (b j : Nat) (f : Beam → Beam) : (s.setBeam b j f).filters = s.filters := rfl
@[simp] theorem setBeam_credits (b j : Nat) (f : Beam → Beam) : (s.setBeam b j f).credits = s.credits := rfl
@[simp] theorem setBeam_recon (b j : Nat) (f : Beam → Beam) : (s.setBeam b j f).recon = s.recon := rfl
@[simp] theorem setBeam_ladders (b j : Nat) (f : Beam → Beam) : (s.setBeam b j f).ladders = s.ladders := rfl
@[simp] theorem setBeam_tests (b j : Nat) (f : Beam → Beam) : (s.setBeam b j f).tests = s.tests := rfl
@[simp] theorem setBeam_ckpts (b j : Nat) (f : Beam → Beam) : (s.setBeam b j f).ckpts = s.ckpts := rfl
@[simp] theorem setBeam_fab (b j : Nat) (f : Beam → Beam) : (s.setBeam b j f).fab = s.fab := rfl
@[simp] theorem setBeam_spdm (b j : Nat) (f : Beam → Beam) : (s.setBeam b j f).spdm = s.spdm := rfl
@[simp] theorem setBeam_reftime (b j : Nat) (f : Beam → Beam) : (s.setBeam b j f).reftime = s.reftime := rfl
@[simp] theorem setBeam_clk (b j : Nat) (f : Beam → Beam) : (s.setBeam b j f).clk = s.clk := rfl
@[simp] theorem setBeam_subtick (b j : Nat) (f : Beam → Beam) : (s.setBeam b j f).subtick = s.subtick := rfl
@[simp] theorem setBeam_rr (b j : Nat) (f : Beam → Beam) : (s.setBeam b j f).rr = s.rr := rfl
@[simp] theorem setBeam_msix (b j : Nat) (f : Beam → Beam) : (s.setBeam b j f).msix = s.msix := rfl
@[simp] theorem setBeam_cur (b j : Nat) (f : Beam → Beam) : (s.setBeam b j f).cur = s.cur := rfl
@[simp] theorem setBeam_agenda (b j : Nat) (f : Beam → Beam) : (s.setBeam b j f).agenda = s.agenda := rfl
@[simp] theorem setBeam_free (b j : Nat) (f : Beam → Beam) : (s.setBeam b j f).free = s.free := rfl
@[simp] theorem setBeam_ids (b j : Nat) (f : Beam → Beam) : (s.setBeam b j f).ids = s.ids := rfl
@[simp] theorem setBeam_resets (b j : Nat) (f : Beam → Beam) : (s.setBeam b j f).resets = s.resets := rfl

@[simp] theorem setBeams_mem (b : Nat) (f : Nat → Beam → Beam) : (s.setBeams b f).mem = s.mem := rfl
@[simp] theorem setBeams_host (b : Nat) (f : Nat → Beam → Beam) : (s.setBeams b f).host = s.host := rfl
@[simp] theorem setBeams_cores (b : Nat) (f : Nat → Beam → Beam) : (s.setBeams b f).cores = s.cores := rfl
@[simp] theorem setBeams_dies (b : Nat) (f : Nat → Beam → Beam) : (s.setBeams b f).dies = s.dies := rfl
@[simp] theorem setBeams_tasks (b : Nat) (f : Nat → Beam → Beam) : (s.setBeams b f).tasks = s.tasks := rfl
@[simp] theorem setBeams_tenants (b : Nat) (f : Nat → Beam → Beam) : (s.setBeams b f).tenants = s.tenants := rfl
@[simp] theorem setBeams_ctxs (b : Nat) (f : Nat → Beam → Beam) : (s.setBeams b f).ctxs = s.ctxs := rfl
@[simp] theorem setBeams_maps (b : Nat) (f : Nat → Beam → Beam) : (s.setBeams b f).maps = s.maps := rfl
@[simp] theorem setBeams_rings (b : Nat) (f : Nat → Beam → Beam) : (s.setBeams b f).rings = s.rings := rfl
@[simp] theorem setBeams_queues (b : Nat) (f : Nat → Beam → Beam) : (s.setBeams b f).queues = s.queues := rfl
@[simp] theorem setBeams_progs (b : Nat) (f : Nat → Beam → Beam) : (s.setBeams b f).progs = s.progs := rfl
@[simp] theorem setBeams_filters (b : Nat) (f : Nat → Beam → Beam) : (s.setBeams b f).filters = s.filters := rfl
@[simp] theorem setBeams_credits (b : Nat) (f : Nat → Beam → Beam) : (s.setBeams b f).credits = s.credits := rfl
@[simp] theorem setBeams_recon (b : Nat) (f : Nat → Beam → Beam) : (s.setBeams b f).recon = s.recon := rfl
@[simp] theorem setBeams_ladders (b : Nat) (f : Nat → Beam → Beam) : (s.setBeams b f).ladders = s.ladders := rfl
@[simp] theorem setBeams_tests (b : Nat) (f : Nat → Beam → Beam) : (s.setBeams b f).tests = s.tests := rfl
@[simp] theorem setBeams_ckpts (b : Nat) (f : Nat → Beam → Beam) : (s.setBeams b f).ckpts = s.ckpts := rfl
@[simp] theorem setBeams_fab (b : Nat) (f : Nat → Beam → Beam) : (s.setBeams b f).fab = s.fab := rfl
@[simp] theorem setBeams_spdm (b : Nat) (f : Nat → Beam → Beam) : (s.setBeams b f).spdm = s.spdm := rfl
@[simp] theorem setBeams_reftime (b : Nat) (f : Nat → Beam → Beam) : (s.setBeams b f).reftime = s.reftime := rfl
@[simp] theorem setBeams_clk (b : Nat) (f : Nat → Beam → Beam) : (s.setBeams b f).clk = s.clk := rfl
@[simp] theorem setBeams_subtick (b : Nat) (f : Nat → Beam → Beam) : (s.setBeams b f).subtick = s.subtick := rfl
@[simp] theorem setBeams_rr (b : Nat) (f : Nat → Beam → Beam) : (s.setBeams b f).rr = s.rr := rfl
@[simp] theorem setBeams_msix (b : Nat) (f : Nat → Beam → Beam) : (s.setBeams b f).msix = s.msix := rfl
@[simp] theorem setBeams_cur (b : Nat) (f : Nat → Beam → Beam) : (s.setBeams b f).cur = s.cur := rfl
@[simp] theorem setBeams_agenda (b : Nat) (f : Nat → Beam → Beam) : (s.setBeams b f).agenda = s.agenda := rfl
@[simp] theorem setBeams_free (b : Nat) (f : Nat → Beam → Beam) : (s.setBeams b f).free = s.free := rfl
@[simp] theorem setBeams_ids (b : Nat) (f : Nat → Beam → Beam) : (s.setBeams b f).ids = s.ids := rfl
@[simp] theorem setBeams_resets (b : Nat) (f : Nat → Beam → Beam) : (s.setBeams b f).resets = s.resets := rfl

@[simp] theorem setMe_mem (f : Beam → Beam) : (s.setMe f).mem = s.mem := rfl
@[simp] theorem setMe_host (f : Beam → Beam) : (s.setMe f).host = s.host := rfl
@[simp] theorem setMe_cores (f : Beam → Beam) : (s.setMe f).cores = s.cores := rfl
@[simp] theorem setMe_dies (f : Beam → Beam) : (s.setMe f).dies = s.dies := rfl
@[simp] theorem setMe_tasks (f : Beam → Beam) : (s.setMe f).tasks = s.tasks := rfl
@[simp] theorem setMe_tenants (f : Beam → Beam) : (s.setMe f).tenants = s.tenants := rfl
@[simp] theorem setMe_ctxs (f : Beam → Beam) : (s.setMe f).ctxs = s.ctxs := rfl
@[simp] theorem setMe_maps (f : Beam → Beam) : (s.setMe f).maps = s.maps := rfl
@[simp] theorem setMe_rings (f : Beam → Beam) : (s.setMe f).rings = s.rings := rfl
@[simp] theorem setMe_queues (f : Beam → Beam) : (s.setMe f).queues = s.queues := rfl
@[simp] theorem setMe_progs (f : Beam → Beam) : (s.setMe f).progs = s.progs := rfl
@[simp] theorem setMe_filters (f : Beam → Beam) : (s.setMe f).filters = s.filters := rfl
@[simp] theorem setMe_credits (f : Beam → Beam) : (s.setMe f).credits = s.credits := rfl
@[simp] theorem setMe_recon (f : Beam → Beam) : (s.setMe f).recon = s.recon := rfl
@[simp] theorem setMe_ladders (f : Beam → Beam) : (s.setMe f).ladders = s.ladders := rfl
@[simp] theorem setMe_tests (f : Beam → Beam) : (s.setMe f).tests = s.tests := rfl
@[simp] theorem setMe_ckpts (f : Beam → Beam) : (s.setMe f).ckpts = s.ckpts := rfl
@[simp] theorem setMe_fab (f : Beam → Beam) : (s.setMe f).fab = s.fab := rfl
@[simp] theorem setMe_spdm (f : Beam → Beam) : (s.setMe f).spdm = s.spdm := rfl
@[simp] theorem setMe_reftime (f : Beam → Beam) : (s.setMe f).reftime = s.reftime := rfl
@[simp] theorem setMe_clk (f : Beam → Beam) : (s.setMe f).clk = s.clk := rfl
@[simp] theorem setMe_subtick (f : Beam → Beam) : (s.setMe f).subtick = s.subtick := rfl
@[simp] theorem setMe_rr (f : Beam → Beam) : (s.setMe f).rr = s.rr := rfl
@[simp] theorem setMe_msix (f : Beam → Beam) : (s.setMe f).msix = s.msix := rfl
@[simp] theorem setMe_cur (f : Beam → Beam) : (s.setMe f).cur = s.cur := rfl
@[simp] theorem setMe_agenda (f : Beam → Beam) : (s.setMe f).agenda = s.agenda := rfl
@[simp] theorem setMe_free (f : Beam → Beam) : (s.setMe f).free = s.free := rfl
@[simp] theorem setMe_ids (f : Beam → Beam) : (s.setMe f).ids = s.ids := rfl
@[simp] theorem setMe_resets (f : Beam → Beam) : (s.setMe f).resets = s.resets := rfl

@[simp] theorem setCore_mem (c : Nat) (f : Core → Core) : (s.setCore c f).mem = s.mem := rfl
@[simp] theorem setCore_host (c : Nat) (f : Core → Core) : (s.setCore c f).host = s.host := rfl
@[simp] theorem setCore_blocks (c : Nat) (f : Core → Core) : (s.setCore c f).blocks = s.blocks := rfl
@[simp] theorem setCore_dies (c : Nat) (f : Core → Core) : (s.setCore c f).dies = s.dies := rfl
@[simp] theorem setCore_tasks (c : Nat) (f : Core → Core) : (s.setCore c f).tasks = s.tasks := rfl
@[simp] theorem setCore_tenants (c : Nat) (f : Core → Core) : (s.setCore c f).tenants = s.tenants := rfl
@[simp] theorem setCore_ctxs (c : Nat) (f : Core → Core) : (s.setCore c f).ctxs = s.ctxs := rfl
@[simp] theorem setCore_maps (c : Nat) (f : Core → Core) : (s.setCore c f).maps = s.maps := rfl
@[simp] theorem setCore_rings (c : Nat) (f : Core → Core) : (s.setCore c f).rings = s.rings := rfl
@[simp] theorem setCore_queues (c : Nat) (f : Core → Core) : (s.setCore c f).queues = s.queues := rfl
@[simp] theorem setCore_progs (c : Nat) (f : Core → Core) : (s.setCore c f).progs = s.progs := rfl
@[simp] theorem setCore_filters (c : Nat) (f : Core → Core) : (s.setCore c f).filters = s.filters := rfl
@[simp] theorem setCore_credits (c : Nat) (f : Core → Core) : (s.setCore c f).credits = s.credits := rfl
@[simp] theorem setCore_recon (c : Nat) (f : Core → Core) : (s.setCore c f).recon = s.recon := rfl
@[simp] theorem setCore_ladders (c : Nat) (f : Core → Core) : (s.setCore c f).ladders = s.ladders := rfl
@[simp] theorem setCore_tests (c : Nat) (f : Core → Core) : (s.setCore c f).tests = s.tests := rfl
@[simp] theorem setCore_ckpts (c : Nat) (f : Core → Core) : (s.setCore c f).ckpts = s.ckpts := rfl
@[simp] theorem setCore_fab (c : Nat) (f : Core → Core) : (s.setCore c f).fab = s.fab := rfl
@[simp] theorem setCore_spdm (c : Nat) (f : Core → Core) : (s.setCore c f).spdm = s.spdm := rfl
@[simp] theorem setCore_reftime (c : Nat) (f : Core → Core) : (s.setCore c f).reftime = s.reftime := rfl
@[simp] theorem setCore_clk (c : Nat) (f : Core → Core) : (s.setCore c f).clk = s.clk := rfl
@[simp] theorem setCore_subtick (c : Nat) (f : Core → Core) : (s.setCore c f).subtick = s.subtick := rfl
@[simp] theorem setCore_rr (c : Nat) (f : Core → Core) : (s.setCore c f).rr = s.rr := rfl
@[simp] theorem setCore_msix (c : Nat) (f : Core → Core) : (s.setCore c f).msix = s.msix := rfl
@[simp] theorem setCore_cur (c : Nat) (f : Core → Core) : (s.setCore c f).cur = s.cur := rfl
@[simp] theorem setCore_agenda (c : Nat) (f : Core → Core) : (s.setCore c f).agenda = s.agenda := rfl
@[simp] theorem setCore_free (c : Nat) (f : Core → Core) : (s.setCore c f).free = s.free := rfl
@[simp] theorem setCore_ids (c : Nat) (f : Core → Core) : (s.setCore c f).ids = s.ids := rfl
@[simp] theorem setCore_resets (c : Nat) (f : Core → Core) : (s.setCore c f).resets = s.resets := rfl

@[simp] theorem setDie_mem (d : Nat) (f : Die → Die) : (s.setDie d f).mem = s.mem := rfl
@[simp] theorem setDie_host (d : Nat) (f : Die → Die) : (s.setDie d f).host = s.host := rfl
@[simp] theorem setDie_blocks (d : Nat) (f : Die → Die) : (s.setDie d f).blocks = s.blocks := rfl
@[simp] theorem setDie_cores (d : Nat) (f : Die → Die) : (s.setDie d f).cores = s.cores := rfl
@[simp] theorem setDie_tasks (d : Nat) (f : Die → Die) : (s.setDie d f).tasks = s.tasks := rfl
@[simp] theorem setDie_tenants (d : Nat) (f : Die → Die) : (s.setDie d f).tenants = s.tenants := rfl
@[simp] theorem setDie_ctxs (d : Nat) (f : Die → Die) : (s.setDie d f).ctxs = s.ctxs := rfl
@[simp] theorem setDie_maps (d : Nat) (f : Die → Die) : (s.setDie d f).maps = s.maps := rfl
@[simp] theorem setDie_rings (d : Nat) (f : Die → Die) : (s.setDie d f).rings = s.rings := rfl
@[simp] theorem setDie_queues (d : Nat) (f : Die → Die) : (s.setDie d f).queues = s.queues := rfl
@[simp] theorem setDie_progs (d : Nat) (f : Die → Die) : (s.setDie d f).progs = s.progs := rfl
@[simp] theorem setDie_filters (d : Nat) (f : Die → Die) : (s.setDie d f).filters = s.filters := rfl
@[simp] theorem setDie_credits (d : Nat) (f : Die → Die) : (s.setDie d f).credits = s.credits := rfl
@[simp] theorem setDie_recon (d : Nat) (f : Die → Die) : (s.setDie d f).recon = s.recon := rfl
@[simp] theorem setDie_ladders (d : Nat) (f : Die → Die) : (s.setDie d f).ladders = s.ladders := rfl
@[simp] theorem setDie_tests (d : Nat) (f : Die → Die) : (s.setDie d f).tests = s.tests := rfl
@[simp] theorem setDie_ckpts (d : Nat) (f : Die → Die) : (s.setDie d f).ckpts = s.ckpts := rfl
@[simp] theorem setDie_fab (d : Nat) (f : Die → Die) : (s.setDie d f).fab = s.fab := rfl
@[simp] theorem setDie_spdm (d : Nat) (f : Die → Die) : (s.setDie d f).spdm = s.spdm := rfl
@[simp] theorem setDie_reftime (d : Nat) (f : Die → Die) : (s.setDie d f).reftime = s.reftime := rfl
@[simp] theorem setDie_clk (d : Nat) (f : Die → Die) : (s.setDie d f).clk = s.clk := rfl
@[simp] theorem setDie_subtick (d : Nat) (f : Die → Die) : (s.setDie d f).subtick = s.subtick := rfl
@[simp] theorem setDie_rr (d : Nat) (f : Die → Die) : (s.setDie d f).rr = s.rr := rfl
@[simp] theorem setDie_msix (d : Nat) (f : Die → Die) : (s.setDie d f).msix = s.msix := rfl
@[simp] theorem setDie_cur (d : Nat) (f : Die → Die) : (s.setDie d f).cur = s.cur := rfl
@[simp] theorem setDie_agenda (d : Nat) (f : Die → Die) : (s.setDie d f).agenda = s.agenda := rfl
@[simp] theorem setDie_free (d : Nat) (f : Die → Die) : (s.setDie d f).free = s.free := rfl
@[simp] theorem setDie_ids (d : Nat) (f : Die → Die) : (s.setDie d f).ids = s.ids := rfl
@[simp] theorem setDie_resets (d : Nat) (f : Die → Die) : (s.setDie d f).resets = s.resets := rfl

@[simp] theorem setLantern_mem (d : Nat) (f : Lantern → Lantern) : (s.setLantern d f).mem = s.mem := rfl
@[simp] theorem setLantern_host (d : Nat) (f : Lantern → Lantern) : (s.setLantern d f).host = s.host := rfl
@[simp] theorem setLantern_blocks (d : Nat) (f : Lantern → Lantern) : (s.setLantern d f).blocks = s.blocks := rfl
@[simp] theorem setLantern_cores (d : Nat) (f : Lantern → Lantern) : (s.setLantern d f).cores = s.cores := rfl
@[simp] theorem setLantern_tasks (d : Nat) (f : Lantern → Lantern) : (s.setLantern d f).tasks = s.tasks := rfl
@[simp] theorem setLantern_tenants (d : Nat) (f : Lantern → Lantern) : (s.setLantern d f).tenants = s.tenants := rfl
@[simp] theorem setLantern_ctxs (d : Nat) (f : Lantern → Lantern) : (s.setLantern d f).ctxs = s.ctxs := rfl
@[simp] theorem setLantern_maps (d : Nat) (f : Lantern → Lantern) : (s.setLantern d f).maps = s.maps := rfl
@[simp] theorem setLantern_rings (d : Nat) (f : Lantern → Lantern) : (s.setLantern d f).rings = s.rings := rfl
@[simp] theorem setLantern_queues (d : Nat) (f : Lantern → Lantern) : (s.setLantern d f).queues = s.queues := rfl
@[simp] theorem setLantern_progs (d : Nat) (f : Lantern → Lantern) : (s.setLantern d f).progs = s.progs := rfl
@[simp] theorem setLantern_filters (d : Nat) (f : Lantern → Lantern) : (s.setLantern d f).filters = s.filters := rfl
@[simp] theorem setLantern_credits (d : Nat) (f : Lantern → Lantern) : (s.setLantern d f).credits = s.credits := rfl
@[simp] theorem setLantern_recon (d : Nat) (f : Lantern → Lantern) : (s.setLantern d f).recon = s.recon := rfl
@[simp] theorem setLantern_ladders (d : Nat) (f : Lantern → Lantern) : (s.setLantern d f).ladders = s.ladders := rfl
@[simp] theorem setLantern_tests (d : Nat) (f : Lantern → Lantern) : (s.setLantern d f).tests = s.tests := rfl
@[simp] theorem setLantern_ckpts (d : Nat) (f : Lantern → Lantern) : (s.setLantern d f).ckpts = s.ckpts := rfl
@[simp] theorem setLantern_fab (d : Nat) (f : Lantern → Lantern) : (s.setLantern d f).fab = s.fab := rfl
@[simp] theorem setLantern_spdm (d : Nat) (f : Lantern → Lantern) : (s.setLantern d f).spdm = s.spdm := rfl
@[simp] theorem setLantern_reftime (d : Nat) (f : Lantern → Lantern) : (s.setLantern d f).reftime = s.reftime := rfl
@[simp] theorem setLantern_clk (d : Nat) (f : Lantern → Lantern) : (s.setLantern d f).clk = s.clk := rfl
@[simp] theorem setLantern_subtick (d : Nat) (f : Lantern → Lantern) : (s.setLantern d f).subtick = s.subtick := rfl
@[simp] theorem setLantern_rr (d : Nat) (f : Lantern → Lantern) : (s.setLantern d f).rr = s.rr := rfl
@[simp] theorem setLantern_msix (d : Nat) (f : Lantern → Lantern) : (s.setLantern d f).msix = s.msix := rfl
@[simp] theorem setLantern_cur (d : Nat) (f : Lantern → Lantern) : (s.setLantern d f).cur = s.cur := rfl
@[simp] theorem setLantern_agenda (d : Nat) (f : Lantern → Lantern) : (s.setLantern d f).agenda = s.agenda := rfl
@[simp] theorem setLantern_free (d : Nat) (f : Lantern → Lantern) : (s.setLantern d f).free = s.free := rfl
@[simp] theorem setLantern_ids (d : Nat) (f : Lantern → Lantern) : (s.setLantern d f).ids = s.ids := rfl
@[simp] theorem setLantern_resets (d : Nat) (f : Lantern → Lantern) : (s.setLantern d f).resets = s.resets := rfl

@[simp] theorem setTask_mem (i : Nat) (f : Task → Task) : (s.setTask i f).mem = s.mem := rfl
@[simp] theorem setTask_host (i : Nat) (f : Task → Task) : (s.setTask i f).host = s.host := rfl
@[simp] theorem setTask_blocks (i : Nat) (f : Task → Task) : (s.setTask i f).blocks = s.blocks := rfl
@[simp] theorem setTask_cores (i : Nat) (f : Task → Task) : (s.setTask i f).cores = s.cores := rfl
@[simp] theorem setTask_dies (i : Nat) (f : Task → Task) : (s.setTask i f).dies = s.dies := rfl
@[simp] theorem setTask_tenants (i : Nat) (f : Task → Task) : (s.setTask i f).tenants = s.tenants := rfl
@[simp] theorem setTask_ctxs (i : Nat) (f : Task → Task) : (s.setTask i f).ctxs = s.ctxs := rfl
@[simp] theorem setTask_maps (i : Nat) (f : Task → Task) : (s.setTask i f).maps = s.maps := rfl
@[simp] theorem setTask_rings (i : Nat) (f : Task → Task) : (s.setTask i f).rings = s.rings := rfl
@[simp] theorem setTask_queues (i : Nat) (f : Task → Task) : (s.setTask i f).queues = s.queues := rfl
@[simp] theorem setTask_progs (i : Nat) (f : Task → Task) : (s.setTask i f).progs = s.progs := rfl
@[simp] theorem setTask_filters (i : Nat) (f : Task → Task) : (s.setTask i f).filters = s.filters := rfl
@[simp] theorem setTask_credits (i : Nat) (f : Task → Task) : (s.setTask i f).credits = s.credits := rfl
@[simp] theorem setTask_recon (i : Nat) (f : Task → Task) : (s.setTask i f).recon = s.recon := rfl
@[simp] theorem setTask_ladders (i : Nat) (f : Task → Task) : (s.setTask i f).ladders = s.ladders := rfl
@[simp] theorem setTask_tests (i : Nat) (f : Task → Task) : (s.setTask i f).tests = s.tests := rfl
@[simp] theorem setTask_ckpts (i : Nat) (f : Task → Task) : (s.setTask i f).ckpts = s.ckpts := rfl
@[simp] theorem setTask_fab (i : Nat) (f : Task → Task) : (s.setTask i f).fab = s.fab := rfl
@[simp] theorem setTask_spdm (i : Nat) (f : Task → Task) : (s.setTask i f).spdm = s.spdm := rfl
@[simp] theorem setTask_reftime (i : Nat) (f : Task → Task) : (s.setTask i f).reftime = s.reftime := rfl
@[simp] theorem setTask_clk (i : Nat) (f : Task → Task) : (s.setTask i f).clk = s.clk := rfl
@[simp] theorem setTask_subtick (i : Nat) (f : Task → Task) : (s.setTask i f).subtick = s.subtick := rfl
@[simp] theorem setTask_rr (i : Nat) (f : Task → Task) : (s.setTask i f).rr = s.rr := rfl
@[simp] theorem setTask_msix (i : Nat) (f : Task → Task) : (s.setTask i f).msix = s.msix := rfl
@[simp] theorem setTask_cur (i : Nat) (f : Task → Task) : (s.setTask i f).cur = s.cur := rfl
@[simp] theorem setTask_agenda (i : Nat) (f : Task → Task) : (s.setTask i f).agenda = s.agenda := rfl
@[simp] theorem setTask_free (i : Nat) (f : Task → Task) : (s.setTask i f).free = s.free := rfl
@[simp] theorem setTask_ids (i : Nat) (f : Task → Task) : (s.setTask i f).ids = s.ids := rfl
@[simp] theorem setTask_resets (i : Nat) (f : Task → Task) : (s.setTask i f).resets = s.resets := rfl

@[simp] theorem setTenant_mem (i : Nat) (f : Tenant → Tenant) : (s.setTenant i f).mem = s.mem := rfl
@[simp] theorem setTenant_host (i : Nat) (f : Tenant → Tenant) : (s.setTenant i f).host = s.host := rfl
@[simp] theorem setTenant_blocks (i : Nat) (f : Tenant → Tenant) : (s.setTenant i f).blocks = s.blocks := rfl
@[simp] theorem setTenant_cores (i : Nat) (f : Tenant → Tenant) : (s.setTenant i f).cores = s.cores := rfl
@[simp] theorem setTenant_dies (i : Nat) (f : Tenant → Tenant) : (s.setTenant i f).dies = s.dies := rfl
@[simp] theorem setTenant_tasks (i : Nat) (f : Tenant → Tenant) : (s.setTenant i f).tasks = s.tasks := rfl
@[simp] theorem setTenant_ctxs (i : Nat) (f : Tenant → Tenant) : (s.setTenant i f).ctxs = s.ctxs := rfl
@[simp] theorem setTenant_maps (i : Nat) (f : Tenant → Tenant) : (s.setTenant i f).maps = s.maps := rfl
@[simp] theorem setTenant_rings (i : Nat) (f : Tenant → Tenant) : (s.setTenant i f).rings = s.rings := rfl
@[simp] theorem setTenant_queues (i : Nat) (f : Tenant → Tenant) : (s.setTenant i f).queues = s.queues := rfl
@[simp] theorem setTenant_progs (i : Nat) (f : Tenant → Tenant) : (s.setTenant i f).progs = s.progs := rfl
@[simp] theorem setTenant_filters (i : Nat) (f : Tenant → Tenant) : (s.setTenant i f).filters = s.filters := rfl
@[simp] theorem setTenant_credits (i : Nat) (f : Tenant → Tenant) : (s.setTenant i f).credits = s.credits := rfl
@[simp] theorem setTenant_recon (i : Nat) (f : Tenant → Tenant) : (s.setTenant i f).recon = s.recon := rfl
@[simp] theorem setTenant_ladders (i : Nat) (f : Tenant → Tenant) : (s.setTenant i f).ladders = s.ladders := rfl
@[simp] theorem setTenant_tests (i : Nat) (f : Tenant → Tenant) : (s.setTenant i f).tests = s.tests := rfl
@[simp] theorem setTenant_ckpts (i : Nat) (f : Tenant → Tenant) : (s.setTenant i f).ckpts = s.ckpts := rfl
@[simp] theorem setTenant_fab (i : Nat) (f : Tenant → Tenant) : (s.setTenant i f).fab = s.fab := rfl
@[simp] theorem setTenant_spdm (i : Nat) (f : Tenant → Tenant) : (s.setTenant i f).spdm = s.spdm := rfl
@[simp] theorem setTenant_reftime (i : Nat) (f : Tenant → Tenant) : (s.setTenant i f).reftime = s.reftime := rfl
@[simp] theorem setTenant_clk (i : Nat) (f : Tenant → Tenant) : (s.setTenant i f).clk = s.clk := rfl
@[simp] theorem setTenant_subtick (i : Nat) (f : Tenant → Tenant) : (s.setTenant i f).subtick = s.subtick := rfl
@[simp] theorem setTenant_rr (i : Nat) (f : Tenant → Tenant) : (s.setTenant i f).rr = s.rr := rfl
@[simp] theorem setTenant_msix (i : Nat) (f : Tenant → Tenant) : (s.setTenant i f).msix = s.msix := rfl
@[simp] theorem setTenant_cur (i : Nat) (f : Tenant → Tenant) : (s.setTenant i f).cur = s.cur := rfl
@[simp] theorem setTenant_agenda (i : Nat) (f : Tenant → Tenant) : (s.setTenant i f).agenda = s.agenda := rfl
@[simp] theorem setTenant_free (i : Nat) (f : Tenant → Tenant) : (s.setTenant i f).free = s.free := rfl
@[simp] theorem setTenant_ids (i : Nat) (f : Tenant → Tenant) : (s.setTenant i f).ids = s.ids := rfl
@[simp] theorem setTenant_resets (i : Nat) (f : Tenant → Tenant) : (s.setTenant i f).resets = s.resets := rfl

@[simp] theorem setSlot_mem (k : Nat) (f : Slot → Slot) : (s.setSlot k f).mem = s.mem := rfl
@[simp] theorem setSlot_host (k : Nat) (f : Slot → Slot) : (s.setSlot k f).host = s.host := rfl
@[simp] theorem setSlot_blocks (k : Nat) (f : Slot → Slot) : (s.setSlot k f).blocks = s.blocks := rfl
@[simp] theorem setSlot_cores (k : Nat) (f : Slot → Slot) : (s.setSlot k f).cores = s.cores := rfl
@[simp] theorem setSlot_dies (k : Nat) (f : Slot → Slot) : (s.setSlot k f).dies = s.dies := rfl
@[simp] theorem setSlot_tasks (k : Nat) (f : Slot → Slot) : (s.setSlot k f).tasks = s.tasks := rfl
@[simp] theorem setSlot_tenants (k : Nat) (f : Slot → Slot) : (s.setSlot k f).tenants = s.tenants := rfl
@[simp] theorem setSlot_ctxs (k : Nat) (f : Slot → Slot) : (s.setSlot k f).ctxs = s.ctxs := rfl
@[simp] theorem setSlot_maps (k : Nat) (f : Slot → Slot) : (s.setSlot k f).maps = s.maps := rfl
@[simp] theorem setSlot_rings (k : Nat) (f : Slot → Slot) : (s.setSlot k f).rings = s.rings := rfl
@[simp] theorem setSlot_queues (k : Nat) (f : Slot → Slot) : (s.setSlot k f).queues = s.queues := rfl
@[simp] theorem setSlot_progs (k : Nat) (f : Slot → Slot) : (s.setSlot k f).progs = s.progs := rfl
@[simp] theorem setSlot_filters (k : Nat) (f : Slot → Slot) : (s.setSlot k f).filters = s.filters := rfl
@[simp] theorem setSlot_credits (k : Nat) (f : Slot → Slot) : (s.setSlot k f).credits = s.credits := rfl
@[simp] theorem setSlot_ladders (k : Nat) (f : Slot → Slot) : (s.setSlot k f).ladders = s.ladders := rfl
@[simp] theorem setSlot_tests (k : Nat) (f : Slot → Slot) : (s.setSlot k f).tests = s.tests := rfl
@[simp] theorem setSlot_ckpts (k : Nat) (f : Slot → Slot) : (s.setSlot k f).ckpts = s.ckpts := rfl
@[simp] theorem setSlot_fab (k : Nat) (f : Slot → Slot) : (s.setSlot k f).fab = s.fab := rfl
@[simp] theorem setSlot_spdm (k : Nat) (f : Slot → Slot) : (s.setSlot k f).spdm = s.spdm := rfl
@[simp] theorem setSlot_reftime (k : Nat) (f : Slot → Slot) : (s.setSlot k f).reftime = s.reftime := rfl
@[simp] theorem setSlot_clk (k : Nat) (f : Slot → Slot) : (s.setSlot k f).clk = s.clk := rfl
@[simp] theorem setSlot_subtick (k : Nat) (f : Slot → Slot) : (s.setSlot k f).subtick = s.subtick := rfl
@[simp] theorem setSlot_rr (k : Nat) (f : Slot → Slot) : (s.setSlot k f).rr = s.rr := rfl
@[simp] theorem setSlot_msix (k : Nat) (f : Slot → Slot) : (s.setSlot k f).msix = s.msix := rfl
@[simp] theorem setSlot_cur (k : Nat) (f : Slot → Slot) : (s.setSlot k f).cur = s.cur := rfl
@[simp] theorem setSlot_agenda (k : Nat) (f : Slot → Slot) : (s.setSlot k f).agenda = s.agenda := rfl
@[simp] theorem setSlot_free (k : Nat) (f : Slot → Slot) : (s.setSlot k f).free = s.free := rfl
@[simp] theorem setSlot_ids (k : Nat) (f : Slot → Slot) : (s.setSlot k f).ids = s.ids := rfl
@[simp] theorem setSlot_resets (k : Nat) (f : Slot → Slot) : (s.setSlot k f).resets = s.resets := rfl

@[simp] theorem setRecon_mem (f : Recon → Recon) : (s.setRecon f).mem = s.mem := rfl
@[simp] theorem setRecon_host (f : Recon → Recon) : (s.setRecon f).host = s.host := rfl
@[simp] theorem setRecon_blocks (f : Recon → Recon) : (s.setRecon f).blocks = s.blocks := rfl
@[simp] theorem setRecon_cores (f : Recon → Recon) : (s.setRecon f).cores = s.cores := rfl
@[simp] theorem setRecon_dies (f : Recon → Recon) : (s.setRecon f).dies = s.dies := rfl
@[simp] theorem setRecon_tasks (f : Recon → Recon) : (s.setRecon f).tasks = s.tasks := rfl
@[simp] theorem setRecon_tenants (f : Recon → Recon) : (s.setRecon f).tenants = s.tenants := rfl
@[simp] theorem setRecon_ctxs (f : Recon → Recon) : (s.setRecon f).ctxs = s.ctxs := rfl
@[simp] theorem setRecon_maps (f : Recon → Recon) : (s.setRecon f).maps = s.maps := rfl
@[simp] theorem setRecon_rings (f : Recon → Recon) : (s.setRecon f).rings = s.rings := rfl
@[simp] theorem setRecon_queues (f : Recon → Recon) : (s.setRecon f).queues = s.queues := rfl
@[simp] theorem setRecon_progs (f : Recon → Recon) : (s.setRecon f).progs = s.progs := rfl
@[simp] theorem setRecon_filters (f : Recon → Recon) : (s.setRecon f).filters = s.filters := rfl
@[simp] theorem setRecon_credits (f : Recon → Recon) : (s.setRecon f).credits = s.credits := rfl
@[simp] theorem setRecon_ladders (f : Recon → Recon) : (s.setRecon f).ladders = s.ladders := rfl
@[simp] theorem setRecon_tests (f : Recon → Recon) : (s.setRecon f).tests = s.tests := rfl
@[simp] theorem setRecon_ckpts (f : Recon → Recon) : (s.setRecon f).ckpts = s.ckpts := rfl
@[simp] theorem setRecon_fab (f : Recon → Recon) : (s.setRecon f).fab = s.fab := rfl
@[simp] theorem setRecon_spdm (f : Recon → Recon) : (s.setRecon f).spdm = s.spdm := rfl
@[simp] theorem setRecon_reftime (f : Recon → Recon) : (s.setRecon f).reftime = s.reftime := rfl
@[simp] theorem setRecon_clk (f : Recon → Recon) : (s.setRecon f).clk = s.clk := rfl
@[simp] theorem setRecon_subtick (f : Recon → Recon) : (s.setRecon f).subtick = s.subtick := rfl
@[simp] theorem setRecon_rr (f : Recon → Recon) : (s.setRecon f).rr = s.rr := rfl
@[simp] theorem setRecon_msix (f : Recon → Recon) : (s.setRecon f).msix = s.msix := rfl
@[simp] theorem setRecon_cur (f : Recon → Recon) : (s.setRecon f).cur = s.cur := rfl
@[simp] theorem setRecon_agenda (f : Recon → Recon) : (s.setRecon f).agenda = s.agenda := rfl
@[simp] theorem setRecon_free (f : Recon → Recon) : (s.setRecon f).free = s.free := rfl
@[simp] theorem setRecon_ids (f : Recon → Recon) : (s.setRecon f).ids = s.ids := rfl
@[simp] theorem setRecon_resets (f : Recon → Recon) : (s.setRecon f).resets = s.resets := rfl

@[simp] theorem setFab_mem (f : Fabric → Fabric) : (s.setFab f).mem = s.mem := rfl
@[simp] theorem setFab_host (f : Fabric → Fabric) : (s.setFab f).host = s.host := rfl
@[simp] theorem setFab_blocks (f : Fabric → Fabric) : (s.setFab f).blocks = s.blocks := rfl
@[simp] theorem setFab_cores (f : Fabric → Fabric) : (s.setFab f).cores = s.cores := rfl
@[simp] theorem setFab_dies (f : Fabric → Fabric) : (s.setFab f).dies = s.dies := rfl
@[simp] theorem setFab_tasks (f : Fabric → Fabric) : (s.setFab f).tasks = s.tasks := rfl
@[simp] theorem setFab_tenants (f : Fabric → Fabric) : (s.setFab f).tenants = s.tenants := rfl
@[simp] theorem setFab_ctxs (f : Fabric → Fabric) : (s.setFab f).ctxs = s.ctxs := rfl
@[simp] theorem setFab_maps (f : Fabric → Fabric) : (s.setFab f).maps = s.maps := rfl
@[simp] theorem setFab_rings (f : Fabric → Fabric) : (s.setFab f).rings = s.rings := rfl
@[simp] theorem setFab_queues (f : Fabric → Fabric) : (s.setFab f).queues = s.queues := rfl
@[simp] theorem setFab_progs (f : Fabric → Fabric) : (s.setFab f).progs = s.progs := rfl
@[simp] theorem setFab_filters (f : Fabric → Fabric) : (s.setFab f).filters = s.filters := rfl
@[simp] theorem setFab_credits (f : Fabric → Fabric) : (s.setFab f).credits = s.credits := rfl
@[simp] theorem setFab_recon (f : Fabric → Fabric) : (s.setFab f).recon = s.recon := rfl
@[simp] theorem setFab_ladders (f : Fabric → Fabric) : (s.setFab f).ladders = s.ladders := rfl
@[simp] theorem setFab_tests (f : Fabric → Fabric) : (s.setFab f).tests = s.tests := rfl
@[simp] theorem setFab_ckpts (f : Fabric → Fabric) : (s.setFab f).ckpts = s.ckpts := rfl
@[simp] theorem setFab_spdm (f : Fabric → Fabric) : (s.setFab f).spdm = s.spdm := rfl
@[simp] theorem setFab_reftime (f : Fabric → Fabric) : (s.setFab f).reftime = s.reftime := rfl
@[simp] theorem setFab_clk (f : Fabric → Fabric) : (s.setFab f).clk = s.clk := rfl
@[simp] theorem setFab_subtick (f : Fabric → Fabric) : (s.setFab f).subtick = s.subtick := rfl
@[simp] theorem setFab_rr (f : Fabric → Fabric) : (s.setFab f).rr = s.rr := rfl
@[simp] theorem setFab_msix (f : Fabric → Fabric) : (s.setFab f).msix = s.msix := rfl
@[simp] theorem setFab_cur (f : Fabric → Fabric) : (s.setFab f).cur = s.cur := rfl
@[simp] theorem setFab_agenda (f : Fabric → Fabric) : (s.setFab f).agenda = s.agenda := rfl
@[simp] theorem setFab_free (f : Fabric → Fabric) : (s.setFab f).free = s.free := rfl
@[simp] theorem setFab_ids (f : Fabric → Fabric) : (s.setFab f).ids = s.ids := rfl
@[simp] theorem setFab_resets (f : Fabric → Fabric) : (s.setFab f).resets = s.resets := rfl

@[simp] theorem setLink_mem (p : Nat) (f : Link → Link) : (s.setLink p f).mem = s.mem := rfl
@[simp] theorem setLink_host (p : Nat) (f : Link → Link) : (s.setLink p f).host = s.host := rfl
@[simp] theorem setLink_blocks (p : Nat) (f : Link → Link) : (s.setLink p f).blocks = s.blocks := rfl
@[simp] theorem setLink_cores (p : Nat) (f : Link → Link) : (s.setLink p f).cores = s.cores := rfl
@[simp] theorem setLink_dies (p : Nat) (f : Link → Link) : (s.setLink p f).dies = s.dies := rfl
@[simp] theorem setLink_tasks (p : Nat) (f : Link → Link) : (s.setLink p f).tasks = s.tasks := rfl
@[simp] theorem setLink_tenants (p : Nat) (f : Link → Link) : (s.setLink p f).tenants = s.tenants := rfl
@[simp] theorem setLink_ctxs (p : Nat) (f : Link → Link) : (s.setLink p f).ctxs = s.ctxs := rfl
@[simp] theorem setLink_maps (p : Nat) (f : Link → Link) : (s.setLink p f).maps = s.maps := rfl
@[simp] theorem setLink_rings (p : Nat) (f : Link → Link) : (s.setLink p f).rings = s.rings := rfl
@[simp] theorem setLink_queues (p : Nat) (f : Link → Link) : (s.setLink p f).queues = s.queues := rfl
@[simp] theorem setLink_progs (p : Nat) (f : Link → Link) : (s.setLink p f).progs = s.progs := rfl
@[simp] theorem setLink_filters (p : Nat) (f : Link → Link) : (s.setLink p f).filters = s.filters := rfl
@[simp] theorem setLink_credits (p : Nat) (f : Link → Link) : (s.setLink p f).credits = s.credits := rfl
@[simp] theorem setLink_recon (p : Nat) (f : Link → Link) : (s.setLink p f).recon = s.recon := rfl
@[simp] theorem setLink_ladders (p : Nat) (f : Link → Link) : (s.setLink p f).ladders = s.ladders := rfl
@[simp] theorem setLink_tests (p : Nat) (f : Link → Link) : (s.setLink p f).tests = s.tests := rfl
@[simp] theorem setLink_ckpts (p : Nat) (f : Link → Link) : (s.setLink p f).ckpts = s.ckpts := rfl
@[simp] theorem setLink_spdm (p : Nat) (f : Link → Link) : (s.setLink p f).spdm = s.spdm := rfl
@[simp] theorem setLink_reftime (p : Nat) (f : Link → Link) : (s.setLink p f).reftime = s.reftime := rfl
@[simp] theorem setLink_clk (p : Nat) (f : Link → Link) : (s.setLink p f).clk = s.clk := rfl
@[simp] theorem setLink_subtick (p : Nat) (f : Link → Link) : (s.setLink p f).subtick = s.subtick := rfl
@[simp] theorem setLink_rr (p : Nat) (f : Link → Link) : (s.setLink p f).rr = s.rr := rfl
@[simp] theorem setLink_msix (p : Nat) (f : Link → Link) : (s.setLink p f).msix = s.msix := rfl
@[simp] theorem setLink_cur (p : Nat) (f : Link → Link) : (s.setLink p f).cur = s.cur := rfl
@[simp] theorem setLink_agenda (p : Nat) (f : Link → Link) : (s.setLink p f).agenda = s.agenda := rfl
@[simp] theorem setLink_free (p : Nat) (f : Link → Link) : (s.setLink p f).free = s.free := rfl
@[simp] theorem setLink_ids (p : Nat) (f : Link → Link) : (s.setLink p f).ids = s.ids := rfl
@[simp] theorem setLink_resets (p : Nat) (f : Link → Link) : (s.setLink p f).resets = s.resets := rfl

@[simp] theorem setPeer_mem (n : Nat) (f : Peer → Peer) : (s.setPeer n f).mem = s.mem := rfl
@[simp] theorem setPeer_host (n : Nat) (f : Peer → Peer) : (s.setPeer n f).host = s.host := rfl
@[simp] theorem setPeer_blocks (n : Nat) (f : Peer → Peer) : (s.setPeer n f).blocks = s.blocks := rfl
@[simp] theorem setPeer_cores (n : Nat) (f : Peer → Peer) : (s.setPeer n f).cores = s.cores := rfl
@[simp] theorem setPeer_dies (n : Nat) (f : Peer → Peer) : (s.setPeer n f).dies = s.dies := rfl
@[simp] theorem setPeer_tasks (n : Nat) (f : Peer → Peer) : (s.setPeer n f).tasks = s.tasks := rfl
@[simp] theorem setPeer_tenants (n : Nat) (f : Peer → Peer) : (s.setPeer n f).tenants = s.tenants := rfl
@[simp] theorem setPeer_ctxs (n : Nat) (f : Peer → Peer) : (s.setPeer n f).ctxs = s.ctxs := rfl
@[simp] theorem setPeer_maps (n : Nat) (f : Peer → Peer) : (s.setPeer n f).maps = s.maps := rfl
@[simp] theorem setPeer_rings (n : Nat) (f : Peer → Peer) : (s.setPeer n f).rings = s.rings := rfl
@[simp] theorem setPeer_queues (n : Nat) (f : Peer → Peer) : (s.setPeer n f).queues = s.queues := rfl
@[simp] theorem setPeer_progs (n : Nat) (f : Peer → Peer) : (s.setPeer n f).progs = s.progs := rfl
@[simp] theorem setPeer_filters (n : Nat) (f : Peer → Peer) : (s.setPeer n f).filters = s.filters := rfl
@[simp] theorem setPeer_credits (n : Nat) (f : Peer → Peer) : (s.setPeer n f).credits = s.credits := rfl
@[simp] theorem setPeer_recon (n : Nat) (f : Peer → Peer) : (s.setPeer n f).recon = s.recon := rfl
@[simp] theorem setPeer_ladders (n : Nat) (f : Peer → Peer) : (s.setPeer n f).ladders = s.ladders := rfl
@[simp] theorem setPeer_tests (n : Nat) (f : Peer → Peer) : (s.setPeer n f).tests = s.tests := rfl
@[simp] theorem setPeer_ckpts (n : Nat) (f : Peer → Peer) : (s.setPeer n f).ckpts = s.ckpts := rfl
@[simp] theorem setPeer_spdm (n : Nat) (f : Peer → Peer) : (s.setPeer n f).spdm = s.spdm := rfl
@[simp] theorem setPeer_reftime (n : Nat) (f : Peer → Peer) : (s.setPeer n f).reftime = s.reftime := rfl
@[simp] theorem setPeer_clk (n : Nat) (f : Peer → Peer) : (s.setPeer n f).clk = s.clk := rfl
@[simp] theorem setPeer_subtick (n : Nat) (f : Peer → Peer) : (s.setPeer n f).subtick = s.subtick := rfl
@[simp] theorem setPeer_rr (n : Nat) (f : Peer → Peer) : (s.setPeer n f).rr = s.rr := rfl
@[simp] theorem setPeer_msix (n : Nat) (f : Peer → Peer) : (s.setPeer n f).msix = s.msix := rfl
@[simp] theorem setPeer_cur (n : Nat) (f : Peer → Peer) : (s.setPeer n f).cur = s.cur := rfl
@[simp] theorem setPeer_agenda (n : Nat) (f : Peer → Peer) : (s.setPeer n f).agenda = s.agenda := rfl
@[simp] theorem setPeer_free (n : Nat) (f : Peer → Peer) : (s.setPeer n f).free = s.free := rfl
@[simp] theorem setPeer_ids (n : Nat) (f : Peer → Peer) : (s.setPeer n f).ids = s.ids := rfl
@[simp] theorem setPeer_resets (n : Nat) (f : Peer → Peer) : (s.setPeer n f).resets = s.resets := rfl

@[simp] theorem setCur_mem (f : Cur → Cur) : (s.setCur f).mem = s.mem := rfl
@[simp] theorem setCur_host (f : Cur → Cur) : (s.setCur f).host = s.host := rfl
@[simp] theorem setCur_blocks (f : Cur → Cur) : (s.setCur f).blocks = s.blocks := rfl
@[simp] theorem setCur_cores (f : Cur → Cur) : (s.setCur f).cores = s.cores := rfl
@[simp] theorem setCur_dies (f : Cur → Cur) : (s.setCur f).dies = s.dies := rfl
@[simp] theorem setCur_tasks (f : Cur → Cur) : (s.setCur f).tasks = s.tasks := rfl
@[simp] theorem setCur_tenants (f : Cur → Cur) : (s.setCur f).tenants = s.tenants := rfl
@[simp] theorem setCur_ctxs (f : Cur → Cur) : (s.setCur f).ctxs = s.ctxs := rfl
@[simp] theorem setCur_maps (f : Cur → Cur) : (s.setCur f).maps = s.maps := rfl
@[simp] theorem setCur_rings (f : Cur → Cur) : (s.setCur f).rings = s.rings := rfl
@[simp] theorem setCur_queues (f : Cur → Cur) : (s.setCur f).queues = s.queues := rfl
@[simp] theorem setCur_progs (f : Cur → Cur) : (s.setCur f).progs = s.progs := rfl
@[simp] theorem setCur_filters (f : Cur → Cur) : (s.setCur f).filters = s.filters := rfl
@[simp] theorem setCur_credits (f : Cur → Cur) : (s.setCur f).credits = s.credits := rfl
@[simp] theorem setCur_recon (f : Cur → Cur) : (s.setCur f).recon = s.recon := rfl
@[simp] theorem setCur_ladders (f : Cur → Cur) : (s.setCur f).ladders = s.ladders := rfl
@[simp] theorem setCur_tests (f : Cur → Cur) : (s.setCur f).tests = s.tests := rfl
@[simp] theorem setCur_ckpts (f : Cur → Cur) : (s.setCur f).ckpts = s.ckpts := rfl
@[simp] theorem setCur_fab (f : Cur → Cur) : (s.setCur f).fab = s.fab := rfl
@[simp] theorem setCur_spdm (f : Cur → Cur) : (s.setCur f).spdm = s.spdm := rfl
@[simp] theorem setCur_reftime (f : Cur → Cur) : (s.setCur f).reftime = s.reftime := rfl
@[simp] theorem setCur_clk (f : Cur → Cur) : (s.setCur f).clk = s.clk := rfl
@[simp] theorem setCur_subtick (f : Cur → Cur) : (s.setCur f).subtick = s.subtick := rfl
@[simp] theorem setCur_rr (f : Cur → Cur) : (s.setCur f).rr = s.rr := rfl
@[simp] theorem setCur_msix (f : Cur → Cur) : (s.setCur f).msix = s.msix := rfl
@[simp] theorem setCur_agenda (f : Cur → Cur) : (s.setCur f).agenda = s.agenda := rfl
@[simp] theorem setCur_free (f : Cur → Cur) : (s.setCur f).free = s.free := rfl
@[simp] theorem setCur_ids (f : Cur → Cur) : (s.setCur f).ids = s.ids := rfl
@[simp] theorem setCur_resets (f : Cur → Cur) : (s.setCur f).resets = s.resets := rfl

/-! ### What the accessors read -/

theorem block_setBlock (b c : Nat) (f : Block → Block) : (s.setBlock b f).block c = if c = b then f (s.block b) else s.block c := by
  simp only [block, setBlock, Tab.get_put]
@[simp] theorem block_setBlock_same (b : Nat) (f : Block → Block) : (s.setBlock b f).block b = f (s.block b) := by simp [block_setBlock]
theorem block_setBlock_other {b c : Nat} (f : Block → Block) (h : c ≠ b) : (s.setBlock b f).block c = s.block c := by simp [block_setBlock, h]

@[simp] theorem block_setBeam_same (b j : Nat) (f : Beam → Beam) :
    (s.setBeam b j f).block b = { s.block b with beams := (s.block b).beams.put j (f (s.beamAt b j)) } := by simp [setBeam, beamAt]
theorem block_setBeam_other {b c : Nat} (j : Nat) (f : Beam → Beam) (h : c ≠ b) : (s.setBeam b j f).block c = s.block c := by
  simp [setBeam, block_setBlock_other, h]

@[simp] theorem beamAt_setBeam_same (b j : Nat) (f : Beam → Beam) : (s.setBeam b j f).beamAt b j = f (s.beamAt b j) := by simp [beamAt]
theorem beamAt_setBeam_other {b j i : Nat} (f : Beam → Beam) (h : i ≠ j) : (s.setBeam b j f).beamAt b i = s.beamAt b i := by
  simp [beamAt, Tab.get_put_other, h]
theorem beamAt_setBeam_block {b c : Nat} (i j : Nat) (f : Beam → Beam) (h : c ≠ b) : (s.setBeam b j f).beamAt c i = s.beamAt c i := by
  simp [beamAt, block_setBeam_other, h]

@[simp] theorem me_setMe (f : Beam → Beam) : (s.setMe f).me = f s.me := by simp [me, setMe]
@[simp] theorem me_setCur_flow (g : Flow) : (s.flow g).me = s.me := rfl

theorem setBlock_setBlock (b : Nat) (f g : Block → Block) (c : Nat) : ((s.setBlock b f).setBlock b g).block c = (s.setBlock b (fun k => g (f k))).block c := by
  simp only [block_setBlock]; split <;> simp_all

@[simp] theorem core_setCore_same (c : Nat) (f : Core → Core) : (s.setCore c f).core c = f (s.core c) := by simp [core, setCore]
theorem core_setCore_other {c d : Nat} (f : Core → Core) (h : d ≠ c) : (s.setCore c f).core d = s.core d := by simp [core, setCore, Tab.get_put_other, h]
@[simp] theorem die_setDie_same (c : Nat) (f : Die → Die) : (s.setDie c f).die c = f (s.die c) := by simp [die, setDie]
theorem die_setDie_other {c d : Nat} (f : Die → Die) (h : d ≠ c) : (s.setDie c f).die d = s.die d := by simp [die, setDie, Tab.get_put_other, h]
@[simp] theorem lantern_setLantern_same (d : Nat) (f : Lantern → Lantern) : (s.setLantern d f).lantern d = f (s.lantern d) := by simp [lantern, setLantern]
@[simp] theorem task_setTask_same (i : Nat) (f : Task → Task) : (s.setTask i f).task i = f (s.task i) := by simp [task, setTask]
theorem task_setTask_other {i j : Nat} (f : Task → Task) (h : j ≠ i) : (s.setTask i f).task j = s.task j := by simp [task, setTask, Tab.get_put_other, h]
@[simp] theorem tenant_setTenant_same (i : Nat) (f : Tenant → Tenant) : (s.setTenant i f).tenant i = f (s.tenant i) := by simp [tenant, setTenant]
theorem tenant_setTenant_other {i j : Nat} (f : Tenant → Tenant) (h : j ≠ i) : (s.setTenant i f).tenant j = s.tenant j := by simp [tenant, setTenant, Tab.get_put_other, h]
@[simp] theorem slot_setSlot_same (k : Nat) (f : Slot → Slot) : (s.setSlot k f).slot k = f (s.slot k) := by simp [slot, setSlot]
theorem slot_setSlot_other {k i : Nat} (f : Slot → Slot) (h : i ≠ k) : (s.setSlot k f).slot i = s.slot i := by simp [slot, setSlot, Tab.get_put_other, h]
@[simp] theorem link_setLink_same (p : Nat) (f : Link → Link) : (s.setLink p f).link p = f (s.link p) := by simp [link, setLink, setFab]
@[simp] theorem peer_setPeer_same (n : Nat) (f : Peer → Peer) : (s.setPeer n f).peer n = f (s.peer n) := by simp [peer, setPeer, setFab]

/-! ### Registers -/

@[simp] theorem rs_zero : s.rs 0 = 0 := rfl
/-- R79: s0 reads 0 whatever is written to it. -/
theorem rs_ws (n r : BitVec 5) (x : W64) : (s.ws n x).rs r = if r = n then (if n = 0 then 0 else x) else s.rs r := by
  by_cases hn : n = 0
  · subst hn
    by_cases hr : r = 0
    · subst hr; rfl
    · rw [if_neg hr]; rfl
  · by_cases hr : r = 0
    · subst hr; rw [if_neg (Ne.symm hn)]; rfl
    · have hw : (s.ws n x).me.s = s.me.s.put n.toNat x := by rw [ws, if_neg hn, me_setMe]
      rw [rs, if_neg hr, hw, Tab.get_put, if_neg hn]
      by_cases h : r = n
      · rw [h, if_pos rfl, if_pos rfl]
      · have hnat : r.toNat ≠ n.toNat := fun e => h (BitVec.eq_of_toNat_eq e)
        rw [if_neg hnat, if_neg h, rs, if_neg hr]

@[simp] theorem advance_me : s.advance.me = { s.me with spc := s.me.spc + 1, spark := .none } := by simp [advance]
@[simp] theorem park_me (p : SPark) : (s.park p).me = { s.me with spark := p } := by simp [park]
@[simp] theorem rs_advance (r : BitVec 5) : s.advance.rs r = s.rs r := by simp [rs]
@[simp] theorem rs_park (p : SPark) (r : BitVec 5) : (s.park p).rs r = s.rs r := by simp [rs]
@[simp] theorem rs_flow (g : Flow) (r : BitVec 5) : (s.flow g).rs r = s.rs r := rfl

end Sys2Proof.Machine.State
end

