-- ==== Sys2Proof/Laws/Ops.lean ====
section
/-! SUPPORT. What each shared operation can do, said once: stores, loads, taking an exception, an engine's queue. -/

namespace Sys2Proof.Machine.State

variable (s : State)

/-! ### The memory of each space -/

@[simp] theorem memOf_setMem_phys (m : Memory) : (s.setMem .phys m).memOf .phys = m := rfl
@[simp] theorem memOf_setMem_host (m : Memory) : (s.setMem .host m).memOf .host = m := rfl
@[simp] theorem memOf_setMem_scratch (b : Nat) (m : Memory) : (s.setMem (.scratch b) m).memOf (.scratch b) = m := by
  simp [memOf, setMem]
theorem memOf_setMem_scratch_other {b c : Nat} (m : Memory) (h : c ≠ b) :
    (s.setMem (.scratch b) m).memOf (.scratch c) = s.memOf (.scratch c) := by
  simp [memOf, setMem, block_setBlock_other, h]
theorem mem_setMem (sp : Space) (m : Memory) : (s.setMem sp m).mem = if sp = .phys then m else s.mem := by
  cases sp <;> rfl
theorem host_setMem (sp : Space) (m : Memory) : (s.setMem sp m).host = if sp = .host then m else s.host := by
  cases sp <;> rfl

/-! ### A watch hit moves no byte (R164, R168, R357, R225) -/

@[simp] theorem hit_mem (l : Loc) : (s.hit l).mem = s.mem := rfl
@[simp] theorem hit_host (l : Loc) : (s.hit l).host = s.host := rfl
@[simp] theorem hit_tasks (l : Loc) : (s.hit l).tasks = s.tasks := rfl
theorem hitTagged_block (t : Option (List Nat)) (l : Loc) (b : Nat) :
    (s.hitTagged t l).block b = { s.block b with beams := (s.block b).beams.mapV (fun _ x => hitBeam t l.line x) } := by
  simp only [hitTagged, block]; rw [Tab.get_mapV]; rfl
theorem hit_block (l : Loc) (b : Nat) :
    (s.hit l).block b = { s.block b with beams := (s.block b).beams.mapV (fun _ x => hitBeam none l.line x) } := hitTagged_block s none l b
/-! ### What is sent, and the events of agents other than beams, touch the fabric, the dies and the counter of free values alone (R283, R352) -/

/-- `t` is `s` but for its fabric, its dies and its counter of free values. -/
def Wired (s t : State) : Prop := ∃ f d n, t = { s with fab := f, dies := d, free := n }

namespace Wired
variable {s t u : State}
theorem refl (s : State) : Wired s s := ⟨s.fab, s.dies, s.free, rfl⟩
theorem trans (h : Wired s t) (k : Wired t u) : Wired s u := by
  obtain ⟨_, _, _, rfl⟩ := h; obtain ⟨f, d, n, rfl⟩ := k; exact ⟨f, d, n, rfl⟩
theorem foldl {α : Type} (f : State → α → State) (hf : ∀ s a, Wired s (f s a)) (l : List α) (s : State) : Wired s (l.foldl f s) := by
  induction l generalizing s with
  | nil => exact refl s
  | cons a r ih => exact (hf s a).trans (ih _)
theorem mem (h : Wired s t) : t.mem = s.mem := by obtain ⟨_, _, _, rfl⟩ := h; rfl
theorem host (h : Wired s t) : t.host = s.host := by obtain ⟨_, _, _, rfl⟩ := h; rfl
theorem blocks (h : Wired s t) : t.blocks = s.blocks := by obtain ⟨_, _, _, rfl⟩ := h; rfl
theorem cores (h : Wired s t) : t.cores = s.cores := by obtain ⟨_, _, _, rfl⟩ := h; rfl
theorem tasks (h : Wired s t) : t.tasks = s.tasks := by obtain ⟨_, _, _, rfl⟩ := h; rfl
theorem ctxs (h : Wired s t) : t.ctxs = s.ctxs := by obtain ⟨_, _, _, rfl⟩ := h; rfl
theorem agenda (h : Wired s t) : t.agenda = s.agenda := by obtain ⟨_, _, _, rfl⟩ := h; rfl
end Wired

theorem wired_setFab (f : Fabric → Fabric) : Wired s (s.setFab f) := ⟨_, s.dies, s.free, rfl⟩
theorem wired_setLink (p : Nat) (f : Link → Link) : Wired s (s.setLink p f) := wired_setFab s _
theorem wired_offer (d : Nat) (e : LEvt) : Wired s (s.offer d e) := by
  unfold offer; dsimp only; split
  · exact ⟨s.fab, _, s.free, rfl⟩
  · exact .refl s
theorem wired_tapDev (d c t k : Nat) (x y z w : W32) : Wired s (s.tapDev d c t k x y z w) :=
  Wired.trans (t := s.takeFree.2) ⟨s.fab, s.dies, _, rfl⟩ (wired_offer _ _ _)
theorem wired_transmit (p v : Nat) (m : FMsg) : Wired s (s.transmit p v m) := by
  unfold transmit
  exact (wired_setFab s _).trans ((wired_setLink _ p _).trans (Wired.foldl _ (fun s _ => wired_tapDev s _ _ _ _ _ _ _ _) _ _))
theorem wired_pumpList (l : List FMsg) (shut : List (Nat × Nat)) : Wired s (pumpList l shut s) := by
  induction l generalizing s shut with
  | nil => exact .refl s
  | cons m r ih =>
    simp only [pumpList]
    split
    · exact (wired_setFab s _).trans (ih _ _)
    · split
      · exact (wired_setFab s _).trans (ih _ _)
      · split
        · exact (wired_setFab s _).trans (ih _ _)
        · exact (wired_transmit s _ _ _).trans (ih _ _)
theorem wired_pump : Wired s s.pump := by
  unfold pump
  exact (wired_setFab s _).trans ((wired_setFab _ _).trans (wired_pumpList _ _ _))
theorem wired_send (m : FMsg) : Wired s (s.send m) := by
  unfold send; split
  · exact (wired_setFab s _).trans (wired_pump _)
  · exact .refl s
theorem wired_sendHits (l : Loc) : Wired s (s.sendHits l) := by
  unfold sendHits; split
  · exact (wired_setFab s _).trans (Wired.foldl _ (fun s _ => wired_send s _) _ _)
  · exact .refl s

@[simp] theorem sendHits_mem (l : Loc) : (s.sendHits l).mem = s.mem := (wired_sendHits s l).mem
@[simp] theorem sendHits_host (l : Loc) : (s.sendHits l).host = s.host := (wired_sendHits s l).host
@[simp] theorem sendHits_tasks (l : Loc) : (s.sendHits l).tasks = s.tasks := (wired_sendHits s l).tasks
@[simp] theorem sendHits_blocks (l : Loc) : (s.sendHits l).blocks = s.blocks := (wired_sendHits s l).blocks
@[simp] theorem wakeBo_mem (sp : Space) : (s.wakeBo sp).mem = s.mem := by cases sp <;> rfl
@[simp] theorem wakeBo_host (sp : Space) : (s.wakeBo sp).host = s.host := by cases sp <;> rfl
@[simp] theorem wakeBo_tasks (sp : Space) : (s.wakeBo sp).tasks = s.tasks := by cases sp <;> rfl
@[simp] theorem alterImages_mem (l : Loc) : (s.alterImages l).mem = s.mem := by
  unfold alterImages; dsimp only; split
  · split <;> rfl
  · rfl
@[simp] theorem alterImages_host (l : Loc) : (s.alterImages l).host = s.host := by
  unfold alterImages; dsimp only; split
  · split <;> rfl
  · rfl
@[simp] theorem alterImages_tasks (l : Loc) : (s.alterImages l).tasks = s.tasks := by
  unfold alterImages; dsimp only; split
  · split <;> rfl
  · rfl

/-! ### A store -/

theorem poke_mem (l : Loc) (bs : List Byte) :
    (s.poke l bs).mem = if l.sp = .phys then (s.mem.put l.addr bs).heal 8 l.addr bs.length else s.mem := by
  rcases l with ⟨sp, a⟩
  cases sp <;> simp [poke, mem_setMem, memOf, Space.eccUnit]
theorem poke_host (l : Loc) (bs : List Byte) :
    (s.poke l bs).host = if l.sp = .host then (s.host.put l.addr bs).heal 8 l.addr bs.length else s.host := by
  rcases l with ⟨sp, a⟩
  cases sp <;> simp [poke, host_setMem, memOf, Space.eccUnit]

/-- A store keeps package memory in canonical form. -/
theorem poke_mem_wf (l : Loc) (bs : List Byte) (h : s.mem.wf = true) : (s.poke l bs).mem.wf = true := by
  rw [poke_mem]; split
  · exact Memory.wf_heal _ _ _ _ (Memory.wf_put _ _ _ h)
  · exact h
/-- A store keeps host memory in canonical form. -/
theorem poke_host_wf (l : Loc) (bs : List Byte) (h : s.host.wf = true) : (s.poke l bs).host.wf = true := by
  rw [poke_host]; split
  · exact Memory.wf_heal _ _ _ _ (Memory.wf_put _ _ _ h)
  · exact h

/-- Every byte of package memory after a store there. -/
theorem peek_poke_phys (a i : Nat) (bs : List Byte) :
    (s.poke { sp := .phys, addr := a } bs).mem.get i = if a ≤ i ∧ i < a + bs.length then (bs[i - a]?).getD 0 else s.mem.get i := by
  rw [poke_mem, if_pos rfl, Memory.get_heal, Memory.get_put]
/-- Every byte of host memory after a store there. -/
theorem peek_poke_host (a i : Nat) (bs : List Byte) :
    (s.poke { sp := .host, addr := a } bs).host.get i = if a ≤ i ∧ i < a + bs.length then (bs[i - a]?).getD 0 else s.host.get i := by
  rw [poke_host, if_pos rfl, Memory.get_heal, Memory.get_put]
/-- A load of what was just stored in package memory gives it back. -/
theorem bytes_poke_phys (a : Nat) (bs : List Byte) : (s.poke { sp := .phys, addr := a } bs).mem.bytes a bs.length = bs := by
  rw [poke_mem, if_pos rfl,
    Memory.bytes_congr _ (s.mem.put a bs) _ _ (fun i _ _ => Memory.get_heal _ _ _ _ i), Memory.bytes_put_same]
/-- A load of what was just stored in host memory gives it back. -/
theorem bytes_poke_host (a : Nat) (bs : List Byte) : (s.poke { sp := .host, addr := a } bs).host.bytes a bs.length = bs := by
  rw [poke_host, if_pos rfl,
    Memory.bytes_congr _ (s.host.put a bs) _ _ (fun i _ _ => Memory.get_heal _ _ _ _ i), Memory.bytes_put_same]

theorem pokeAll_wf (l : Loc) (bs : List Byte) (hm : s.mem.wf = true) (hh : s.host.wf = true) :
    (s.pokeAll l bs).mem.wf = true ∧ (s.pokeAll l bs).host.wf = true := by
  unfold pokeAll
  generalize List.range ((l.addr % 64 + bs.length + 63) / 64) = ks
  induction ks generalizing s with
  | nil => exact ⟨hm, hh⟩
  | cons k r ih => exact ih _ (poke_mem_wf _ _ _ hm) (poke_host_wf _ _ _ hh)

/-! ### Late stores (R84) -/

/-- What performing late stores can do, said once: what holds after every store, and after the beam's list of them has shrunk, holds. -/
theorem performSome_ind (P : State → Prop) (b j : Nat) (p : LateStore → Bool) (h0 : P s)
    (hb : P (s.setBeam b j (fun x => { x with late := x.late.filter (fun e => !p e) }))) (hs : ∀ s l bs, P s → P (s.poke l bs)) : P (s.performSome b j p) := by
  unfold performSome; dsimp only; split
  · generalize List.filter p _ = es
    revert hb
    generalize s.setBeam b j _ = t
    induction es generalizing t with
    | nil => exact id
    | cons e r ih => exact fun h => ih _ (hs _ _ _ h)
  · exact h0
/-- R84: performing late stores keeps both memories in canonical form. -/
theorem performSome_wf (b j : Nat) (p : LateStore → Bool) (hm : s.mem.wf = true) (hh : s.host.wf = true) :
    (s.performSome b j p).mem.wf = true ∧ (s.performSome b j p).host.wf = true :=
  performSome_ind s (fun t => t.mem.wf = true ∧ t.host.wf = true) b j p ⟨hm, hh⟩ ⟨hm, hh⟩ (fun s l bs h => ⟨poke_mem_wf s l bs h.1, poke_host_wf s l bs h.2⟩)
/-- R84: where no late store of the beam comes first, nothing is performed. -/
theorem performSome_none (b j : Nat) (p : LateStore → Bool) (h : (s.beamAt b j).late.any p = false) : s.performSome b j p = s := by
  simp [performSome, h]
@[simp] theorem shareLate_mem (b j : Nat) (lanes : Bool) : (s.shareLate b j lanes).mem = s.mem := by unfold shareLate; dsimp only; split <;> rfl
@[simp] theorem shareLate_host (b j : Nat) (lanes : Bool) : (s.shareLate b j lanes).host = s.host := by unfold shareLate; dsimp only; split <;> rfl
@[simp] theorem shareLate_cores (b j : Nat) (lanes : Bool) : (s.shareLate b j lanes).cores = s.cores := by unfold shareLate; dsimp only; split <;> rfl
@[simp] theorem shareLate_tasks (b j : Nat) (lanes : Bool) : (s.shareLate b j lanes).tasks = s.tasks := by unfold shareLate; dsimp only; split <;> rfl
@[simp] theorem shareLate_fab (b j : Nat) (lanes : Bool) : (s.shareLate b j lanes).fab = s.fab := by unfold shareLate; dsimp only; split <;> rfl
@[simp] theorem shareLate_cur (b j : Nat) (lanes : Bool) : (s.shareLate b j lanes).cur = s.cur := by unfold shareLate; dsimp only; split <;> rfl

/-- R357: a HIT reaches no watch but of the line that its tag was sent for. -/
theorem hitReach_known (w : List (Nat × Nat × Nat)) (node line tag k : Nat) (h : k ∈ hitReach w node line tag) :
    (node, line, k) ∈ w := by
  have mem : ∀ k, k ∈ (w.filter (fun e => e.1 = node && e.2.1 = line)).map (fun e => e.2.2) → (node, line, k) ∈ w := by
    intro k h
    obtain ⟨⟨n, l, t⟩, he, rfl⟩ := List.mem_map.1 h
    obtain ⟨he, hp⟩ := List.mem_filter.1 he
    simp only [Bool.and_eq_true, decide_eq_true_eq] at hp
    rw [← hp.1, ← hp.2]; exact he
  unfold hitReach at h
  dsimp only at h
  split at h
  · rename_i hc
    rcases List.mem_append.1 h with h | h
    · exact mem _ (List.takeWhile_subset _ h)
    · rw [List.mem_singleton.1 h]; exact mem _ (List.contains_iff_mem.1 hc)
  · cases h

theorem hostPut_mem (a n x : Nat) : (s.hostPut a n x).mem = s.mem := by simp [hostPut, poke_mem]
theorem hostPut_host_wf (a n x : Nat) (h : s.host.wf = true) : (s.hostPut a n x).host.wf = true := poke_host_wf _ _ _ h

/-! ### An observed event touches only its die (R283) -/

@[simp] theorem offer_mem (d : Nat) (e : LEvt) : (s.offer d e).mem = s.mem := by unfold offer; dsimp only; split <;> rfl
@[simp] theorem offer_host (d : Nat) (e : LEvt) : (s.offer d e).host = s.host := by unfold offer; dsimp only; split <;> rfl
@[simp] theorem offer_blocks (d : Nat) (e : LEvt) : (s.offer d e).blocks = s.blocks := by unfold offer; dsimp only; split <;> rfl
@[simp] theorem offer_cores (d : Nat) (e : LEvt) : (s.offer d e).cores = s.cores := by unfold offer; dsimp only; split <;> rfl
@[simp] theorem offer_tasks (d : Nat) (e : LEvt) : (s.offer d e).tasks = s.tasks := by unfold offer; dsimp only; split <;> rfl
@[simp] theorem offer_tenants (d : Nat) (e : LEvt) : (s.offer d e).tenants = s.tenants := by unfold offer; dsimp only; split <;> rfl
@[simp] theorem offer_ctxs (d : Nat) (e : LEvt) : (s.offer d e).ctxs = s.ctxs := by unfold offer; dsimp only; split <;> rfl
@[simp] theorem offer_maps (d : Nat) (e : LEvt) : (s.offer d e).maps = s.maps := by unfold offer; dsimp only; split <;> rfl
@[simp] theorem offer_rings (d : Nat) (e : LEvt) : (s.offer d e).rings = s.rings := by unfold offer; dsimp only; split <;> rfl
@[simp] theorem offer_queues (d : Nat) (e : LEvt) : (s.offer d e).queues = s.queues := by unfold offer; dsimp only; split <;> rfl
@[simp] theorem offer_progs (d : Nat) (e : LEvt) : (s.offer d e).progs = s.progs := by unfold offer; dsimp only; split <;> rfl
@[simp] theorem offer_filters (d : Nat) (e : LEvt) : (s.offer d e).filters = s.filters := by unfold offer; dsimp only; split <;> rfl
@[simp] theorem offer_credits (d : Nat) (e : LEvt) : (s.offer d e).credits = s.credits := by unfold offer; dsimp only; split <;> rfl
@[simp] theorem offer_recon (d : Nat) (e : LEvt) : (s.offer d e).recon = s.recon := by unfold offer; dsimp only; split <;> rfl
@[simp] theorem offer_fab (d : Nat) (e : LEvt) : (s.offer d e).fab = s.fab := by unfold offer; dsimp only; split <;> rfl
@[simp] theorem offer_reftime (d : Nat) (e : LEvt) : (s.offer d e).reftime = s.reftime := by unfold offer; dsimp only; split <;> rfl
@[simp] theorem offer_clk (d : Nat) (e : LEvt) : (s.offer d e).clk = s.clk := by unfold offer; dsimp only; split <;> rfl
@[simp] theorem offer_cur (d : Nat) (e : LEvt) : (s.offer d e).cur = s.cur := by unfold offer; dsimp only; split <;> rfl
@[simp] theorem offer_agenda (d : Nat) (e : LEvt) : (s.offer d e).agenda = s.agenda := by unfold offer; dsimp only; split <;> rfl
@[simp] theorem offer_free (d : Nat) (e : LEvt) : (s.offer d e).free = s.free := by unfold offer; dsimp only; split <;> rfl
@[simp] theorem offer_ids (d : Nat) (e : LEvt) : (s.offer d e).ids = s.ids := by unfold offer; dsimp only; split <;> rfl
@[simp] theorem block_offer (d : Nat) (e : LEvt) (b : Nat) : (s.offer d e).block b = s.block b := by simp [block]
@[simp] theorem tapBeam_mem (b j k : Nat) (x y z w : W32) : (s.tapBeam b j k x y z w).mem = s.mem := by simp [tapBeam]
@[simp] theorem tapBeam_host (b j k : Nat) (x y z w : W32) : (s.tapBeam b j k x y z w).host = s.host := by simp [tapBeam]
@[simp] theorem tapBeam_blocks (b j k : Nat) (x y z w : W32) : (s.tapBeam b j k x y z w).blocks = s.blocks := by simp [tapBeam]
@[simp] theorem tapBeam_cores (b j k : Nat) (x y z w : W32) : (s.tapBeam b j k x y z w).cores = s.cores := by simp [tapBeam]
@[simp] theorem tapBeam_tasks (b j k : Nat) (x y z w : W32) : (s.tapBeam b j k x y z w).tasks = s.tasks := by simp [tapBeam]
@[simp] theorem tapBeam_tenants (b j k : Nat) (x y z w : W32) : (s.tapBeam b j k x y z w).tenants = s.tenants := by simp [tapBeam]
@[simp] theorem tapBeam_ctxs (b j k : Nat) (x y z w : W32) : (s.tapBeam b j k x y z w).ctxs = s.ctxs := by simp [tapBeam]
@[simp] theorem tapBeam_maps (b j k : Nat) (x y z w : W32) : (s.tapBeam b j k x y z w).maps = s.maps := by simp [tapBeam]
@[simp] theorem tapBeam_rings (b j k : Nat) (x y z w : W32) : (s.tapBeam b j k x y z w).rings = s.rings := by simp [tapBeam]
@[simp] theorem tapBeam_queues (b j k : Nat) (x y z w : W32) : (s.tapBeam b j k x y z w).queues = s.queues := by simp [tapBeam]
@[simp] theorem tapBeam_progs (b j k : Nat) (x y z w : W32) : (s.tapBeam b j k x y z w).progs = s.progs := by simp [tapBeam]
@[simp] theorem tapBeam_filters (b j k : Nat) (x y z w : W32) : (s.tapBeam b j k x y z w).filters = s.filters := by simp [tapBeam]
@[simp] theorem tapBeam_credits (b j k : Nat) (x y z w : W32) : (s.tapBeam b j k x y z w).credits = s.credits := by simp [tapBeam]
@[simp] theorem tapBeam_recon (b j k : Nat) (x y z w : W32) : (s.tapBeam b j k x y z w).recon = s.recon := by simp [tapBeam]
@[simp] theorem tapBeam_fab (b j k : Nat) (x y z w : W32) : (s.tapBeam b j k x y z w).fab = s.fab := by simp [tapBeam]
@[simp] theorem tapBeam_reftime (b j k : Nat) (x y z w : W32) : (s.tapBeam b j k x y z w).reftime = s.reftime := by simp [tapBeam]
@[simp] theorem tapBeam_clk (b j k : Nat) (x y z w : W32) : (s.tapBeam b j k x y z w).clk = s.clk := by simp [tapBeam]
@[simp] theorem tapBeam_cur (b j k : Nat) (x y z w : W32) : (s.tapBeam b j k x y z w).cur = s.cur := by simp [tapBeam]
@[simp] theorem tapBeam_agenda (b j k : Nat) (x y z w : W32) : (s.tapBeam b j k x y z w).agenda = s.agenda := by simp [tapBeam]
@[simp] theorem tapBeam_free (b j k : Nat) (x y z w : W32) : (s.tapBeam b j k x y z w).free = s.free := by simp [tapBeam]
@[simp] theorem tapBeam_ids (b j k : Nat) (x y z w : W32) : (s.tapBeam b j k x y z w).ids = s.ids := by simp [tapBeam]
@[simp] theorem block_tapBeam (b j k : Nat) (x y z w : W32) (c : Nat) : (s.tapBeam b j k x y z w).block c = s.block c := by simp [block]

/-! ### Taking an exception (R215, R216, R218) -/

@[simp] theorem trapInHandler_mem (b j : Nat) (c : Cause) : (s.trapInHandler b j c).mem = s.mem := by
  unfold trapInHandler; split <;> simp
@[simp] theorem trapInHandler_host (b j : Nat) (c : Cause) : (s.trapInHandler b j c).host = s.host := by
  unfold trapInHandler; split <;> simp
theorem takeTrap_mem (b j : Nat) (c : Cause) (u : Option Nat) : (s.takeTrap b j c u).mem = s.mem := by
  unfold takeTrap; split
  · split <;> simp
  · dsimp only; split <;> simp
theorem takeTrap_host (b j : Nat) (c : Cause) (u : Option Nat) : (s.takeTrap b j c u).host = s.host := by
  unfold takeTrap; split
  · split <;> simp
  · dsimp only; split <;> simp

/-- In a block that does not halt, beam `j` gets the cause's registers and the block's halt is signalled. -/
theorem takeTrap_fresh (b j : Nat) (c : Cause) (u : Option Nat) (h : (s.block b).halt = none) :
    ((s.takeTrap b j c u).beamAt b j).tcg = c.tcg j ∧ ((s.takeTrap b j c u).beamAt b j).tdr0 = c.tdr0
    ∧ ((s.takeTrap b j c u).beamAt b j).tdr1 = c.d1 ∧ ((s.takeTrap b j c u).beamAt b j).tdr2 = c.d2
    ∧ ((s.takeTrap b j c u).block b).halt = some { beam := j, cause := some c, unit := u, since := s.now } := by
  unfold takeTrap; rw [h]; dsimp only
  split <;> simp [beamAt, block_tapBeam, setBeams, now]

/-- A word that would trap in a block that already halts has no effect, unless it is the running handler's. -/
theorem takeTrap_halting (b j : Nat) (c : Cause) (u : Option Nat) (x : Halt) (h : (s.block b).halt = some x)
    (hx : (decide (x.stage = .handler) && decide (x.beam = j)) = false) : s.takeTrap b j c u = s := by
  unfold takeTrap; rw [h]; simp [hx]

/-! ### An engine's queue -/

/-- R192: an entry goes to the end of its queue. -/
theorem enqueueSe_same (c q : Nat) (e : SEntry) : ((s.enqueueSe c q e).core c).se.get q [] = (s.core c).se.get q [] ++ [e] := by
  simp [enqueueSe]
theorem enqueueSe_other {c q r : Nat} (e : SEntry) (h : r ≠ q) : ((s.enqueueSe c q e).core c).se.get r [] = (s.core c).se.get r [] := by
  simp [enqueueSe, Tab.get_put_other _ _ _ h]

/-! ### Reset -/

/-- R369: reset memory is in canonical form. -/
theorem reset_mem_wf : State.reset.mem.wf = true := rfl
theorem reset_host_wf : State.reset.host.wf = true := rfl

end Sys2Proof.Machine.State
end

