-- ==== Sys2Proof/Safety.lean ====
section
/-! DEFINITION. What a safe run is: no step stops. -/

namespace Sys2Proof.Safety

/-- `s` goes on for `n` steps without a fault or a refusal. -/
def goesOn : Nat → Machine.State → Prop
  | 0, _ => True
  | n + 1, s => ∃ t, Machine.step s = .next t ∧ goesOn n t

end Sys2Proof.Safety
end

