-- ==== Sys2Proof/Tests/Slice0.lean ====
section
/-! SUPPORT. Tests: an ill-formed term for each check of WellFormed, words of the spec that decode, single steps with results
taken from the spec, and for every obligation with hypotheses states and operands that meet them. -/

namespace Sys2Proof.Tests
open Sys2Proof Sys2Proof.Machine Sys2Proof.Claims

-- Each test is checked in its turn: many at once ask for more threads than the memory limit has room for.
set_option Elab.async false

/-! ### Ill-formed terms -/

/-- A long-form lane operation with the given operand fields. -/
def op (d a b : BitVec 9) (c : BitVec 9 := 0) (m : BitVec 10 := 0) (imm : W32 := 0) : LaneOp := { long := true, d := d, a := a, b := b, c := c, m := m, imm := imm }
/-- A short-form lane operation. -/
def short (d a b : BitVec 9) (m : BitVec 10 := 0) : LaneOp := { long := false, d := d, a := a, b := b, c := 0, m := m, imm := 0 }

theorem test_wf_iadd : (Instr.iadd (op 3 1 2)).wf = true := by decide
theorem test_wf_short_c : (Instr.iadd { short 3 1 2 with c := 1 }).wf = false := by decide
theorem test_wf_short_imm : (Instr.iadd { short 3 1 2 with imm := 1 }).wf = false := by decide
theorem test_wf_short_m : (Instr.imov (short 3 1 0 0x80)).wf = false := by decide
theorem test_wf_unused_d : (Instr.fence (op 3 0 0)).wf = false := by decide
theorem test_wf_unused_a : (Instr.lclock (op 3 1 0)).wf = false := by decide
theorem test_wf_unused_b : (Instr.popc (op 3 1 2)).wf = false := by decide
theorem test_wf_unused_c : (Instr.iadd (op 3 1 2 4)).wf = false := by decide
theorem test_wf_modifier : (Instr.iadd (op 3 1 2 0 1)).wf = false := by decide
theorem test_wf_annotation : (Instr.ld (op 6 320 0 0x108 2)).wf = true ∧ (Instr.ld (op 6 320 0 0x001 2)).wf = false := by decide
theorem test_wf_imm_unnamed : (Instr.iadd (op 3 1 2 0 0 7)).wf = false ∧ (Instr.iadd (op 3 1 323 0 0 7)).wf = true := by decide
theorem test_wf_imm_direct : (Instr.ljmp (op 0 0 0 0 0 0x01000000)).wf = false := by decide
theorem test_wf_width : (Instr.samoLoad 1 2 .w16 .ar .pkg).wf = false ∧ (Instr.samo 1 2 3 .add .w8 .ar .pkg).wf = false ∧ (Instr.scas 1 2 3 .w16 .ar .pkg).wf = false := by decide
theorem test_wf_order : (Instr.samoLoad 1 2 .w32 .rel .pkg).wf = false ∧ (Instr.samoStore 1 2 .w32 .acq .pkg).wf = false ∧ (Instr.samoStore 1 2 .w8 .rel .pkg).wf = false := by decide
theorem test_wf_pool : (Instr.rgive 0).wf = false ∧ (Instr.rgive 40).wf = true ∧ (Instr.rclaim 41).wf = false := by decide
theorem test_wf_lantern : (Instr.glde 1 12).wf = false ∧ (Instr.glde 1 11).wf = true ∧ (Instr.gskip .eq 1 2 0).wf = false := by decide
theorem test_wf_core : (Instr.boUpdatePerform 383).wf = true ∧ (Instr.boUpdatePerform 384).wf = false ∧ (Instr.throttle 384 0).wf = false := by decide
theorem test_wf_queue : (Instr.seEntryStart 0 3).wf = true ∧ (Instr.seEntryStart 0 4).wf = false ∧ (Instr.entryCompletion 0 4).wf = true ∧ (Instr.entryCompletion 0 5).wf = false := by decide
theorem test_wf_cluster : (Instr.inFieldTest 95).wf = true ∧ (Instr.inFieldTest 96).wf = false := by decide
theorem test_wf_die : (Instr.filterRun 3).wf = true ∧ (Instr.filterRun 4).wf = false ∧ (Instr.patrol 4 0 .clean).wf = false := by decide
theorem test_wf_row : (Instr.softRepair { die := 0, stack := 3, channel := 0, row := 0 }).wf = false ∧ (Instr.softRepair { die := 0, stack := 0, channel := 32, row := 0 }).wf = false := by decide
theorem test_wf_port : (Instr.portDown 15).wf = true ∧ (Instr.portDown 16).wf = false := by decide

/-! ### Words written out from the spec's encodings -/

theorem test_decode_smulh : decodeScalar 0x00642803 = .ok (.smulh 3 4 5) := rfl
theorem test_decode_ssrai : decodeScalar 0x1CE7003F = .ok (.ssrai 7 7 63) := rfl
theorem test_decode_slui : decodeScalar 0x2860FFFE = .ok (.slui 3 0xFFFE) := rfl
theorem test_decode_sb : decodeScalar 0x6110A003 = .ok (.sb .lt 4 5 3) := rfl
theorem test_decode_sjal : decodeScalar 0x67E00005 = .ok (.sjal 31 5) := rfl
theorem test_decode_upush : decodeScalar 0x88040000 = .ok (.upush 4) := rfl
theorem test_decode_sgetw : decodeScalar 0x8CA00009 = .ok (.sgetw 5 9) := rfl
theorem test_decode_seal : decodeScalar 0x98A63800 = .ok (.seal 5 6 7) := rfl
theorem test_decode_mfuse : decodeLane 0x10B16860_00000000_00000003 = .ok { pred := 1, neg := false, y := false, body := .one (.mfuse (op 323 0 0 0 0 3)) } := rfl
theorem test_decode_ljoin : decodeLane 0x70708000_00000000_00200000 = .ok { pred := 7, neg := false, y := false, body := .one (.ljoin (op 0 0 0 0 0 0x200000)) } := rfl
theorem test_decode_mwait : decodeLane 0x70B18000_00000000_00000000 = .ok { pred := 7, neg := false, y := false, body := .one (.mwait (op 0 0 0)) } := rfl
theorem test_decode_sgetw_all : Claims.isLantern (.gend) = true ∧ decodeLantern 0x80000000 = some .gend := by decide
/-- R53: a reserved opcode, a reserved operation and a must-be-zero bit are refused. -/
theorem test_decode_refuses : (match decodeScalar 0x2C000000 with | .error _ => true | .ok _ => false) = true
    ∧ (match decodeScalar 0x00642FFF with | .error _ => true | .ok _ => false) = true
    ∧ (match decodeLane 0x7FF00000_00000000_00000000 with | .error _ => true | .ok _ => false) = true
    ∧ decodeLantern 0xF8000000 = none := by decide

/-! ### Single steps -/

/-- A beam with four register units: s3 = 5, s4 = 7, s6 the scratch address 0x40, s7 all ones; v1 = 5 and v2 = 7 in lane 0. -/
def beam : Beam := { units := 4, s := [(3, 5), (4, 7), (6, 0xFFFE000000000040), (7, 0xFFFFFFFFFFFFFFFF)], v := [(32, 5), (64, 7)] }
def blk : Block := { task := 1, core := 0, regg := 1, scrg := 1, accg := 1, prsize := 65536, trig := true }
/-- One block, number 5, on core 0, with beam 0 issuing in its lit unit with every lane live: task 1 of context 2, tenant 3, program 4. -/
def st (f : Beam → Beam := id) (g : Block → Block := id) : State :=
  { State.reset with
    blocks := [(5, g { blk with beams := [(0, f beam)] })]
    tasks := [(1, { ctx := 2, tenant := 3, prog := 4, dies := 1 })]
    tenants := [(3, { grace := 10 })]
    ctxs := [(2, { tenant := 3, cid := 7, dies := 1 })]
    progs := [(4, { tenant := 3, ctx := 2, stage := 3, versions := [(0, { scode := [0x00642000, 0xAC000000], lcode := [0x7020C140_10100D51_00000000, 0] })] })]
    fab := {}, spdm := {}
    cur := { blk := 5, act := 0xFFFFFFFF } }

/-- The instruction answers a next state that satisfies `p`. -/
def after (i : Instr) (s : State) (p : State → Bool) : Bool := match exec i s with | .next t => p t | _ => false
/-- Likewise with register 3 of lane 0, for a lane operation on the values `a` and `b` of v1 and v2. -/
def lane (i : Instr) (a b x : W32) : Bool := after i (st (fun m => { m with v := [(32, a), (64, b)] })) (fun t => t.me.v.get 96 0 == x)

/-- R86: sums wrap; R79: s0 stays 0. -/
theorem test_sadd : after (.sadd 3 3 7) (st) (fun t => t.rs 3 == 4) = true ∧ after (.sadd 0 3 4) (st) (fun t => t.rs 0 == 0) = true := by decide +kernel
theorem test_ssub : after (.ssub 3 3 4) (st) (fun t => t.rs 3 == 0xFFFFFFFFFFFFFFFE) = true := by decide +kernel
theorem test_smulh : after (.smulh 3 7 7) (st) (fun t => t.rs 3 == 0) = true := by decide +kernel
theorem test_smulhu : after (.smulhu 3 7 7) (st) (fun t => t.rs 3 == 0xFFFFFFFFFFFFFFFE) = true := by decide +kernel
theorem test_ssra : after (.ssra 3 7 4) (st) (fun t => t.rs 3 == 0xFFFFFFFFFFFFFFFF) = true := by decide +kernel
theorem test_sslt : after (.sslt 3 7 4) (st) (fun t => t.rs 3 == 1) = true ∧ after (.ssltu 3 7 4) (st) (fun t => t.rs 3 == 0) = true := by decide +kernel
theorem test_sclz : after (.sclz 3 0) (st) (fun t => t.rs 3 == 64) = true := by decide +kernel
theorem test_spopc : after (.spopc 3 4) (st) (fun t => t.rs 3 == 3) = true := by decide +kernel
theorem test_saddi : after (.saddi 3 4 0xFFFF) (st) (fun t => t.rs 3 == 6) = true := by decide +kernel
theorem test_sori : after (.sori 3 0 0xFFFF) (st) (fun t => t.rs 3 == 0xFFFF) = true := by decide +kernel
theorem test_slui : after (.slui 3 0xFFFE) (st) (fun t => t.rs 3 == 0xFFFFFFFFFFFE0000) = true := by decide +kernel
theorem test_sst_sld : after (.sst 3 6 .w64 8) (st) (fun t => after (.sld 8 6 .w32 8) t (fun u => u.rs 8 == 5 && u.peek { sp := .scratch 5, addr := 0x48 } 2 == [5, 0])) = true := by decide +kernel
theorem test_sld_misaligned : after (.sld 8 6 .w64 4) (st) (fun t => t.me.tcg == 1 && t.me.tdr0.toNat % 65536 == 3 && t.rs 8 == 0) = true := by decide +kernel
theorem test_samo : after (.samo 8 6 3 .add .w32 .rlx .block) (st) (fun t => t.rs 8 == 0 && t.peek { sp := .scratch 5, addr := 0x40 } 2 == [5, 0]) = true := by decide +kernel
theorem test_scas : after (.scas 8 6 3 .w32 .rlx .block) (st) (fun t => t.peek { sp := .scratch 5, addr := 0x40 } 1 == [5]) = true
    ∧ after (.scas 7 6 3 .w32 .rlx .block) (st) (fun t => t.rs 7 == 0 && t.peek { sp := .scratch 5, addr := 0x40 } 1 == [0]) = true := by decide +kernel
theorem test_sb : after (.sb .lt 7 3 1) (st) (fun t => t.me.spc == 1) = true ∧ after (.sb .ltu 7 3 1) (st) (fun t => t.me.spc == 1) = true := by decide +kernel
theorem test_sjr_outside : after (.sjr 8 4 0) (st) (fun t => t.me.tcg == 3 && t.me.tdr0.toNat % 65536 == 6 && t.me.tdr1 == 7 && t.rs 8 == 0) = true := by decide +kernel
theorem test_trap : after (.trap 9) (st) (fun t => t.me.tcg == 10 && t.me.tdr0 == 9 && t.me.spc == 1 && t.myBlock.halt.isSome) = true := by decide +kernel
theorem test_eret_outside : after .eret (st) (fun t => t.me.tcg == 3 && t.me.tdr0.toNat % 65536 == 1) = true := by decide +kernel
theorem test_rgive_all : after (.rgive 4) (st) (fun t => t.me.tcg == 4 && t.me.tdr0.toNat % 65536 == 2) = true := by decide +kernel
theorem test_rclaim : after (.rclaim 12) (st) (fun t => t.me.units == 16) = true ∧ after (.rclaim 13) (st) (fun t => t.me.units == 4 && t.me.spc == 0) = true := by decide +kernel
theorem test_sysw_readonly : after (.sysw .beamcfg 3) (st) (fun t => t.readSys .beamcfg == 1024 && t.me.spc == 1) = true := by decide +kernel
theorem test_waitw_empty : after (.waitw 8 3 false) (st) (fun t => t.rs 8 == 2) = true := by decide +kernel

/-- R100: sums wrap; R50: 384 and up read what an index names. -/
theorem test_iadd : lane (.iadd (op 3 1 2)) 0xFFFFFFFF 2 1 = true := by decide +kernel
theorem test_imulh : lane (.imulh (op 3 1 2)) 0x80000000 2 0xFFFFFFFF = true ∧ lane (.imulhu (op 3 1 2)) 0x80000000 2 1 = true := by decide +kernel
theorem test_iabs : lane (.iabs (op 3 1 0)) 0x80000000 0 0x80000000 = true ∧ lane (.iabs (op 3 1 0 0 1)) 0x80000000 0 0x7FFFFFFF = true := by decide +kernel
theorem test_ishl : lane (.ishl (op 3 1 2)) 1 32 0 = true ∧ lane (.isra (op 3 1 2)) 0x80000000 40 0xFFFFFFFF = true := by decide +kernel
theorem test_clz : lane (.clz (op 3 1 0)) 0 0 32 = true ∧ lane (.clz (op 3 1 0)) 1 0 31 = true := by decide +kernel
theorem test_iadds : lane (.iadds (op 3 1 2)) 0x7FFFFFFF 1 0x7FFFFFFF = true ∧ lane (.iadds (op 3 1 2 0 1)) 0xFFFFFFFF 1 0xFFFFFFFF = true := by decide +kernel
theorem test_unpk : lane (.unpk (op 3 1 2 0 5)) 0x0000FF80 1 0xFFFFFFFF = true ∧ lane (.unpk (op 3 1 2 0 1)) 0x0000FF80 0 0x80 = true := by decide +kernel
theorem test_bfx : lane (.bfx (op 3 1 2)) 0x000000F0 0x0404 0xF = true ∧ lane (.bfx (op 3 1 2 0 1)) 0x000000F0 0x0404 0xFFFFFFFF = true := by decide +kernel
/-- R112: 1.0 + 1.0 = 2.0; infinity minus infinity is the canonical NaN (R63). -/
theorem test_fadd : lane (.fadd (op 3 1 2)) 0x3F800000 0x3F800000 0x40000000 = true ∧ lane (.fadd (op 3 1 2)) 0x7F800000 0xFF800000 0x7FC00000 = true := by decide +kernel
theorem test_fmul : lane (.fmul (op 3 1 2)) 0x40000000 0x40400000 0x40C00000 = true := by decide +kernel
theorem test_frcp : lane (.frcp (op 3 1 0)) 0x40000000 0 0x3F000000 = true := by decide +kernel
theorem test_icmp : after (.icmp (op 337 1 2 0 2)) (st) (fun t => t.rp 1 == 1) = true := by decide +kernel
theorem test_vote : after (.vote (op 337 1 0)) (st) (fun t => t.rp 1 == 0xFFFFFFFF) = true := by decide +kernel
/-- R141: an exclusive sum gives lane 0 the identity and lane 1 what lane 0 holds. -/
theorem test_scan : after (.scan (op 3 1 0 0 0x10)) (st) (fun t => t.me.v.get 96 9 == 0 && t.me.v.get 97 9 == 5) = true := by decide +kernel
theorem test_match : after (.match (op 3 1 0)) (st) (fun t => t.me.v.get 96 0 == 1 && t.me.v.get 97 0 == 0xFFFFFFFE) = true := by decide +kernel

/-! ### Witnesses: states and operands that meet the hypotheses of the obligations -/

/-- The scratch location 0x48 of the block. -/
def loc : Loc := { sp := .scratch 5, addr := 0x48 }

theorem unasked_of {s : State} (a : W64) (h : s.fab.reqs = []) : unasked a s := fun op n => by simp only [State.asked, h]; rfl
theorem witness_readable : readable 0 ((st).rs 6 + (8 : BitVec 14).signExtend 64) Width.w64.bytes loc (st) ∧ readable 3 ((st).rs 6) 1 { loc with addr := 0x40 } (st) :=
  ⟨⟨unasked_of _ rfl, ⟨by decide +kernel, ⟨none, by decide +kernel⟩, nofun⟩, by decide +kernel⟩,
    ⟨unasked_of _ rfl, ⟨by decide +kernel, ⟨none, by decide +kernel⟩, nofun⟩, by decide +kernel⟩⟩
theorem witness_writable : (∀ t base z, (none : Option (Nat × Nat × Nat)) = some (t, base, z) → ((st).tenant t).dlbase = 0 ∨ ((st).tenant t).dirty.contains base = true)
    ∧ writable 1 ((st).rs 6 + (8 : BitVec 14).signExtend 64) Width.w64.bytes loc none (st) ∧ (st).myBlock.mirror = none :=
  ⟨nofun, ⟨unasked_of _ rfl, by decide +kernel, by decide +kernel, nofun, by decide +kernel, nofun, by decide +kernel⟩, rfl⟩
theorem witness_atomic : writable 2 ((st).rs 6) Width.w32.bytes { loc with addr := 0x40 } none (st) ∧ (st).myBlock.mirror = none :=
  ⟨⟨unasked_of _ rfl, by decide +kernel, by decide +kernel, nofun, by decide +kernel, nofun, by decide +kernel⟩, rfl⟩
/-- A store of the scalar stream still to be performed: a store, a load of its location, and one of another. -/
def late (lane : Option Nat) (b : Beam) : Beam := { b with late := [{ lane := lane, loc := loc, data := [9, 0, 0, 0] }] }
theorem witness_late : writable 1 ((st (late none)).rs 6 + (8 : BitVec 14).signExtend 64) Width.w64.bytes loc none (st (late none))
    ∧ ({ st with cur := { blk := 5, later := 1 } } : State).cur.later ≠ 0 ∧ (st (late none)).me.late[0]? = some { loc := loc, data := [9, 0, 0, 0] } :=
  ⟨⟨unasked_of _ rfl, by decide +kernel, by decide +kernel, nofun, by decide +kernel, nofun, by decide +kernel⟩, by decide, by decide⟩
theorem witness_own_scratch : ((st).rs 6 + (8 : BitVec 14).signExtend 64).toNat / 2 ^ 48 ≠ 0xFFFD ∧ ({ st with cur := { blk := 5, later := 1 } } : State).cur.later ≠ 0
    ∧ ((st (fun b => { b with s := [(6, 0xFFFD000000000048)] })).rs 6 + (0 : BitVec 14).signExtend 64).toNat / 2 ^ 48 = 0xFFFD ∧ loc.sp = .scratch (st).cur.blk := by decide +kernel
/-- R84: a later store of the stream to the location performs the late one first, a load of it reads what it stored, and one of another leaves it late. -/
theorem test_late_same : after (.sld 8 6 .w32 8) (st (late none)) (fun t => t.rs 8 == 9 && t.me.late == []) = true := by decide +kernel
theorem test_late_other : after (.sld 8 6 .w32 16) (st (late none)) (fun t => t.rs 8 == 0 && t.me.late.length == 1 && t.peek loc 1 == [0]) = true := by decide +kernel
/-- Example 5.2: of two stores of the stream the second may be performed before the first. -/
theorem test_late_overtaken : after (.sst 3 6 .w32 16) (st (late none)) (fun t => t.peek { loc with addr := 0x50 } 1 == [5] && t.peek loc 1 == [0] && (t.performTurn 5 0 0).peek loc 1 == [9]) = true := by decide +kernel
/-- A stored byte in a page that a mapping of the host's memory reaches, with its log entry made. -/
def mapped (s : State) : State :=
  { s with maps := [(10, { stage2 := false, tenant := 3, ctx := 2, va := 0x10000, pa := 0x20000, len := 0x10000, psize := 0, w := true, conv := true }),
                    (11, { stage2 := true, tenant := 3, va := 0x20000, pa := 0x30000, len := 0x10000, psize := 0, w := true, conv := true })] }
def far : State := mapped (st (fun b => { b with s := [(6, 0x10040)] }))
theorem witness_writable_global : writable 1 (far.rs 6) 4 { sp := .phys, addr := 0x30040 } (some (3, 0x20000, 0)) far ∧ noLogDue (some (3, 0x20000, 0)) far :=
  ⟨⟨unasked_of _ rfl, by decide +kernel, by decide +kernel, nofun, by decide +kernel, (by intro t b z h; cases h; exact .inl (by decide +kernel)), by decide +kernel⟩,
    by intro t b z h; cases h; exact .inl (by decide +kernel)⟩

theorem witness_control : condHolds .eq ((st).rs 3) ((st).rs 3) = true ∧ condHolds .ne ((st).rs 3) ((st).rs 3) = false
    ∧ ((st).me.spc + (1 : BitVec 13).signExtend 64).toNat < ((st).codeOf 5).scode.length ∧ ((st).me.spc + (1 : BitVec 21).signExtend 64).toNat < ((st).codeOf 5).scode.length
    ∧ ((st).rs 0 + (1 : BitVec 16).signExtend 64).toNat < ((st).codeOf 5).scode.length
    ∧ ¬ ((st).rs 0 + (2 : BitVec 16).signExtend 64).toNat < ((st).codeOf 5).scode.length ∧ (st).myBlock.halt = none := by decide +kernel
theorem witness_links : (st).me.inHandler = false ∧ ((st).rs 0 + (1 : BitVec 16).signExtend 64).toNat < ((st).codeOf 5).lcode.length ∧ (st).me.regions = []
    ∧ regionsPast (st) ∧ (st).myBlock.halt = none ∧ State.parkedClaims (st).myBlock = [] := by
  refine ⟨?_, ?_, ?_, .inl ?_, ?_, ?_⟩ <;> decide +kernel
theorem witness_pool : (3 : BitVec 11).toNat < (st).me.units ∧ (st).me.units ≤ (4 : BitVec 11).toNat
    ∧ (st).me.units + (12 : BitVec 11).toNat ≤ 40 ∧ (12 : BitVec 11).toNat ≤ (st).myBlock.reserve ∧ (st).myBlock.reserve < (13 : BitVec 11).toNat
    ∧ 40 < (st).me.units + (37 : BitVec 11).toNat ∧ (st).me.units + (36 : BitVec 11).toNat ≤ 40 := by decide +kernel
/-- A beam whose region runs. -/
def runs (b : Beam) : Beam := { b with regions := [{}], running := true, lit := some { mask := 0xFFFFFFFF } }
theorem witness_interlock : SysReg.interlocked true .dead = true ∧ ¬ regionsPast (st runs) ∧ SysReg.interlocked false .sor = true ∧ regionsPast (st) := by
  refine ⟨by decide, ?_, by decide, .inl (by decide +kernel)⟩
  rintro (h | h) <;> exact absurd h (by decide +kernel)
/-- A mirrored block with three mismatches. -/
def twin (k : Block) : Block := { k with mirror := some { partner := 6, mism := 300 } }
theorem witness_mirror : (st).myBlock.mirror = none ∧ (st id twin).myBlock.mirror = some { partner := 6, mism := 300 } ∧ (st id twin).myBlock.halt = none
    ∧ (st id twin).ownScratch 5 ((st id twin).rs 3) = false ∧ (FenceKind.sc ≠ .acq ∧ 3 ≤ Scope.cluster.code) ∧ ((st id twin).tenant ((st id twin).tenantOf 5)).fmask = 0 := by decide +kernel
/-- A block stopped by a trap of its beam, whose handler is set. -/
def stoppedBlock : State := st (fun b => { b with trapvec := 0x8000000000000001, tcg := 10, regions := [{}], lit := some { pc := 1, mask := 1 } }) (fun k => { k with halt := some { beam := 0, cause := some { grp := 10 }, since := 0 } })
theorem witness_handler : (stoppedBlock).onCore 5 = true ∧ (stoppedBlock.block 5).mirror = none ∧ (stoppedBlock.block 5).halt = some { beam := 0, cause := some { grp := 10 }, since := 0 }
    ∧ ({ beam := 0, cause := some { grp := 10 }, since := 0 } : Halt).quiet = false ∧ stoppedBlock.stopped 5 = true ∧ stoppedBlock.handled 5 = true ∧ stoppedBlock.accessesDone 5 = true := by decide +kernel
/-- A beam in its handler. -/
def handling : State := st (fun b => { b with tcg := 0x8A, tpc := 1 }) (fun k => { k with halt := some { beam := 0, cause := some { grp := 10 }, stage := .handler } })
theorem witness_eret : handling.me.inHandler = true ∧ handling.myBlock.halt = some { beam := 0, cause := some { grp := 10 }, stage := .handler } ∧ handling.cur.beam = 0
    ∧ ({ beam := 0, cause := some { grp := 10 }, stage := .handler } : Halt).quiet = false ∧ handling.myBlock.causes = [] ∧ handling.ladderOf handling.cur.blk = none ∧ (st).me.inHandler = false := by decide +kernel

/-- The operation reads `x` and changes nothing. -/
def isDone {α : Type} [DecidableEq α] (g : Got α) (x : α) (s : State) : Bool := match g with | .done y t => decide (y = x) && decide (t = s) | _ => false
theorem of_isDone {α : Type} [DecidableEq α] {g : Got α} {x : α} {s : State} (h : isDone g x s = true) : g = .done x s := by
  unfold isDone at h; split at h
  · rw [Bool.and_eq_true, decide_eq_true_iff, decide_eq_true_iff] at h; rw [h.1, h.2]
  · cases h

/-- A launch record of one beam with one unit in role 1, in a pool of one register granule, with `succ` successors and `rev` revision entries. -/
def record (succ rev : Nat) : List Byte :=
  toBytes 8 0 ++ toBytes 4 1 ++ toBytes 4 1 ++ toBytes 8 0x100000 ++ toBytes 8 16 ++ toBytes 32 0x41 ++ toBytes 8 (2 ^ 32 * (succ + 16 * rev)) ++ toBytes 8 0x10200 ++ toBytes 8 0x10200 ++ toBytes 40 0
/-- The issuing beam has read a record. -/
def hasRead (r : TaskRead) (s : State) : State := s.setMe (fun x => { x with read := some r })
/-- The record of an object of a kind, version 2, of tenant 3. -/
def recordOf (kind id : Nat) : List Byte := toBytes 8 2 ++ toBytes 2 (kind + 256) ++ toBytes 2 0 ++ toBytes 4 id ++ toBytes 2 3 ++ toBytes 238 0
/-- The block with a launch record at 0x10040 and 64 bytes of a successor or revision table at 0x10200. -/
def pool (succ rev : Nat) (tab : List Byte) : State :=
  { mapped (st (fun b => { b with s := [(3, 9), (6, 0x10040)] })) with mem := (({} : Memory).put 0x30040 (record succ rev)).put 0x30200 tab, queues := [(9, { tenant := 3, ctx := 2, cap := 1, dies := 1 })], recon := { slots := [(1, { inforce := recordOf 5 9, state := 3 })] } }
def enq : State := pool 1 0 (toBytes 8 0x10080)
def enqRead : TaskRead := { lr := Launch.ofBytes (record 1 0), succ := [0x10080] }
def enqWith : State := hasRead enqRead enq
theorem witness_tenq : enq.myBlock.mirror = none ∧ enq.me.inHandler = false ∧ regionsPast enq
    ∧ enq.launchOnce (enq.rs 6) false = .done enqRead enqWith ∧ enqWith.queueOf (enqWith.rs 3) = some 9
    ∧ enqWith.freeSlot 9 (min ((enqWith.taskOf enqWith.cur.blk).depth + 1) 255) = some 1 ∧ enqWith.tableFree (State.dieOf (enqWith.coreOf enqWith.cur.blk)) = true
    ∧ enqWith.unbound enqWith.myBlock.task enqRead.lr = false ∧ ({ enqWith with progs := [] } : State).unbound enqWith.myBlock.task enqRead.lr = true := by
  refine ⟨rfl, rfl, .inl rfl, of_isDone ?_, ?_, ?_, ?_, ?_, ?_⟩ <;> decide +kernel

/-- One revision entry: the line at 0x10400, copied. -/
def revTab : List RevEnt := [{ base := 0x10400, len := 64, etype := 0, merge := 0 }]
def frk : State := { pool 0 1 (toBytes 8 0x10400 ++ toBytes 8 64 ++ toBytes 16 0) with tenants := [(3, { revq := 2 })] }
def ancestor : Memory := ({} : Memory).put 0x10400 (List.replicate 64 0)
def frkRead : TaskRead := { lr := Launch.ofBytes (record 0 1), ents := revTab }
def frkWith : State := hasRead frkRead frk
theorem witness_tfork : (frk.tenant (frk.tenantOf frk.cur.blk)).fmask = 0 ∧ frk.myBlock.mirror = none ∧ frk.me.inHandler = false ∧ regionsPast frk
    ∧ frk.launchOnce (frk.rs 6) true = .done frkRead frkWith ∧ State.forkChecks (coveredLines revTab) frkWith = .done () frkWith
    ∧ State.forkLines (coveredLines revTab) {} frkWith = .done ancestor frkWith ∧ frkWith.unbound frkWith.myBlock.task frkRead.lr = false ∧ 2 * (coveredLines revTab).length ≤ frkWith.revFree 3 ∧ frkWith.forkWaits 3 = [] ∧ frkWith.me.spark = .none
    ∧ frkWith.tableFree 0 = true ∧ ∃ u, frkWith.allocFor (2 ^ 40 + 64 * frkWith.cur.blk + frkWith.cur.beam) 0 ((64 * 2 + 65535) / 65536) = some ([0], u) := by
  refine ⟨rfl, rfl, rfl, .inl rfl, of_isDone ?_, of_isDone ?_, of_isDone ?_, ?_, ?_, ?_, ?_, ?_, ?_⟩ <;> first | decide +kernel | exact ⟨_, rfl⟩

/-- The parent of an ended child, task 8, with an empty revision. -/
def parent (past : Bool) : State :=
  { mapped (st (fun b => { b with s := [(3, 8), (4, 9), (6, 0x10040)] })) with
    tasks := [(1, { ctx := 2, tenant := 3, prog := 4, dies := 1, kids := [8] }), (8, { ctx := 2, tenant := 3, prog := 4, parent := 1, forked := true, ended := past })] }
theorem witness_tjoin : ((parent true).tenant ((parent true).tenantOf (parent true).cur.blk)).fmask = 0 ∧ (parent true).me.spark = .none ∧ (parent true).rs 0 = 0
    ∧ ((parent true).task (parent true).myBlock.task).kids.contains ((parent true).rs 3).toNat = true ∧ ((parent true).task 8).joined = false ∧ ((parent true).task 8).ended = true
    ∧ (∃ u, (parent true).joinKid 8 1 = (some (List.replicate 8 0), u)) ∧ ((parent false).task 8).ended = false
    ∧ ((parent true).task 1).kids.contains ((parent true).rs 4).toNat = false ∧ (parent true).rs 6 ≠ 0
    ∧ (parent true).accessCause 5 0 ((List.range 8).map (fun e => (0, (parent true).rs 6 + BitVec.ofNat 64 (4 * e)))) 4 1 true = none
    ∧ ∃ u, State.storeCounts ((parent true).rs 6) (List.replicate 8 (BitVec.allOnes 32)) (parent true) = .done () u := by
  refine ⟨?_, ?_, ?_, ?_, ?_, ?_, ⟨_, rfl⟩, ?_, ?_, ?_, ?_, ⟨_, rfl⟩⟩ <;> decide +kernel
theorem witness_exit : (st).myBlock.trig = true ∧ (st id (fun k => { k with trig := false })).myBlock.trig = false ∧ (st).me.preq.getLsbD 0 = false
    ∧ (st (fun b => { b with preq := 1 })).me.preq.getLsbD 0 = true := by decide +kernel
/-- A block whose one beam has arrived at barrier 15. -/
def arrivedAt (k : Nat) : State := st (fun b => { b with spark := .bar k })
theorem witness_barrier : (arrivedAt 15).onCore 5 = true ∧ ((arrivedAt 15).block 5).halt = none ∧ (∃ e ∈ ((arrivedAt 15).block 5).beams, e.2.exited = false)
    ∧ (∀ e ∈ ((arrivedAt 15).block 5).beams, e.2.exited = false → e.2.spark = .bar 15) := by
  refine ⟨rfl, rfl, ⟨_, .head _, rfl⟩, fun e h _ => ?_⟩
  cases h with
  | head => rfl
  | tail _ h => cases h
theorem witness_objects : (st).boPoisoned 5 0x40 = false ∧ (st).boCheck 1 ((st).rs 6) = .ok 0x40
    ∧ 1 ≤ ((st).rs 0 + (1 : BitVec 11).setWidth 64).toNat ∧ ((st).rs 0 + (1 : BitVec 11).setWidth 64).toNat ≤ 32767
    ∧ ((st id (fun k => { k with scratch := ({} : Memory).put 0x40 [1, 0, 0, 0] })).boAccepted 5 0x40).pend ≠ 0 ∧ ((st).boAt 5 0x40).phase ≠ true ∧ ((st).boAt 5 0x40).phase = false := by
  refine ⟨?_, rfl, ?_, ?_, ?_, ?_, ?_⟩ <;> decide +kernel
def updates (o : BoOp) (f : Beam → Beam := id) : State := { st f with cores := [(0, { boPend := [{ blk := 5, off := 0x40, op := o }] })] }
theorem witness_updates : ((updates (.init 32767)).core 0).boPend = [{ blk := 5, off := 0x40, op := .init 32767 }] ∧ (updates (.init 32767)).poisonedAt { sp := .scratch 5, addr := 0x40 } 16 = false
    ∧ (st (fun b => { b with spark := .bowait 0x40 true })).beamAt 5 0 = { beam with spark := .bowait 0x40 true } ∧ ((st).boAt 5 0x40).phase ≠ true := by decide +kernel
/-- A beam that waits for a hit on its one watch. -/
def waits (dl : Option Nat) (n counted : Nat) (hit : Bool) (b : Beam) : Beam := { b with watch := [{ loc := { sp := .scratch 5, addr := 0x40 }, hit := hit }], spark := .waitw dl false n counted }
theorem witness_waits : ((st (waits (some 0) 0 1000000000 true)).beamAt 5 0).spark = .waitw (some 0) false 0 1000000000 ∧ (st).onCore 5 = true
    ∧ ((st (waits (some 0) 0 0 true)).beamAt 5 0).watch.findIdx? (·.hit) = some 0 ∧ 0 ≤ (st).now ∧ ((st (waits none 0 0 false)).beamAt 5 0).exited = false := by decide +kernel
theorem witness_watch : (st).me.watch.length < 4 ∧ (st (waits none 0 0 true)).me.watch.any (fun e => e.loc = ({ sp := .scratch 5, addr := 0x41 } : Loc).line) = true
    ∧ (st).poisonedAt ({ sp := .scratch 5, addr := 0x40 } : Loc).line 64 = false := by decide +kernel

/-- PROGRAM record 4 of tenant 3, version 2. -/
def programRec : List Byte := toBytes 8 2 ++ toBytes 2 260 ++ toBytes 2 0 ++ toBytes 4 4 ++ toBytes 2 3 ++ toBytes 238 0
/-- A staged image of one scalar word and one lane word at 0x10040, good or with a reserved scalar opcode. -/
def staged (w : Nat) : State :=
  { mapped (st (fun b => { b with s := [(3, 4), (6, 0x10040)] })) with
    recon := { slots := [(1, { inforce := programRec, state := 3, conv := 2, obsv := 2, want := programRec })] }
    mem := ((({} : Memory).put 0x30040 (toBytes 4 0x4754534B ++ toBytes 4 1 ++ toBytes 4 1)).put 0x30080 (toBytes 4 w)).put 0x300C0 (toBytes 12 0x70B1800000000000_00000000) }
def image (w : Nat) : Code := { scode := [BitVec.ofNat 32 w], lcode := [0x70B1800000000000_00000000] }
theorem witness_seal : (staged 0x00642000).readStaged 3 = .done none (staged 0x00642000)
    ∧ (staged 0x00642000).readStaged ((staged 0x00642000).rs 6) = .done (some (image 0x00642000)) (staged 0x00642000) ∧ (staged 0x00642000).sealFault 3 4 (image 0x00642000) = none
    ∧ (staged 0x2C000000).readStaged ((staged 0x2C000000).rs 6) = .done (some (image 0x2C000000)) (staged 0x2C000000) ∧ ((staged 0x2C000000).sealFault 3 4 (image 0x2C000000)).isSome = true := by
  refine ⟨rfl, of_isDone ?_, ?_, of_isDone ?_, ?_⟩ <;> decide +kernel

/-- The same with lane 0 alone active. -/
def one (f : Beam → Beam := id) (g : Block → Block := id) : State := { st f g with cur := { blk := 5, act := 1, slot := 0 } }
theorem only_zero {s : State} {i : Nat} (hs : s.cur.act = 1) (h : active i s) : i = 0 := by
  have key : ∀ i, i < 32 → (1#32).getLsbD i = true → i = 0 := by decide
  have h2 := h.2
  rw [hs] at h2
  exact key i h.1 h2
theorem witness_modifiers : (op 3 1 2 0 1).m.toNat % 4 ≠ 3 ∧ (op 3 1 2 0 1).mb 0 1 = 1 ∧ (op 3 1 2).mb 0 1 = 0 ∧ (op 3 1 2 0 5).mb 0 2 ≠ 3 ∧ (op 3 1 2 0 5).mb 2 2 ≠ 3
    ∧ (op 337 1 0 0 3).mb 0 2 = 3 ∧ (op 337 1 0 0 2).mb 0 2 = 2 ∧ (op 3 1 0 0 4).mb 2 1 = 1 := by decide
/-- The lit unit at word 0 with lanes 0 and 1, lane 0 in p1; and the same with its other slot taken. -/
def split (b : Beam) : Beam := { b with lit := some { mask := 3 }, p := [(1, 1)], regions := [{}], running := true }
def full (b : Beam) : Beam := { split b with shade := some { pc := 1, mask := 4 } }
def ctl (f : Beam → Beam) (g : Block → Block := id) : State := { mapped (st f g) with cur := { blk := 5, act := 3, slot := 0 } }
theorem witness_branches : (ctl split).me.unit 0 = some { mask := 3 } ∧ (ctl split).selected (op 0 337 0) = 1 ∧ (ctl split).selected (op 0 338 0) = 0
    ∧ (ctl split).offCode (State.ctlTarget (op 0 337 0 0 0 1)) = false ∧ (ctl split).slotFree = true ∧ (ctl full).slotFree = false
    ∧ (3#32 &&& ~~~((ctl split).selected (op 0 337 0))) ≠ 0 ∧ (3#32 &&& ~~~((ctl split).selected (op 0 343 0))) = 0 ∧ (ctl split).selected (op 0 343 0) ≠ 0 := by decide +kernel
/-- The block's fragment records lie in a page that a mapping reaches. -/
def recs (k : Block) : Block := { k with prbase := 0x10000, prsize := 0 }
theorem witness_record : recordPlace 0 { sp := .phys, addr := 0x30000 } (ctl full recs) :=
  ⟨rfl, by decide +kernel, nofun, by decide +kernel, by decide +kernel, some (3, 0x20000, 0), by intro t b z h; cases h; exact .inl (by decide +kernel), by decide +kernel⟩
theorem witness_unpinned : (ctl split).pinnedRec = none := rfl
/-- A program whose first lane word is LJOIN 2, 0, and a beam whose lit unit carries token 2. -/
def joins (lit shade : Option LUnit) (u : Nat) : State :=
  { st (fun b => { b with lit := lit, shade := shade, regions := [{}] }) with
    progs := [(4, { versions := [(0, { scode := [0], lcode := [0x70708000_00000000_00200000, 0] })] })], cur := { blk := 5, act := 1, unit := u, slot := 0 } }
theorem witness_joins : (joins (some { mask := 1, token := 2 }) none 0).joinAt 5 0 = some (2, 0) ∧ State.ctlToken (op 0 0 0 0 0 0x200000) = 2
    ∧ (joins (some { mask := 1, token := 2 }) none 0).me.unit 0 = some { mask := 1, token := 2 } ∧ (joins (some { mask := 1, token := 2 }) none 0).me.frags = []
    ∧ (joins (some { mask := 1, token := 2 }) (some { pc := 1, mask := 2, token := 2 }) 0).me.shade = some { pc := 1, mask := 2, token := 2 }
    ∧ (joins (some { mask := 1, token := 2, join := true }) (some { mask := 2, token := 2 }) 1).me.unit 1 = some { mask := 2, token := 2 }
    ∧ (joins (some { mask := 1, token := 2, join := true }) (some { mask := 2, token := 2 }) 1).me.lit = some { mask := 1, token := 2, join := true }
    ∧ (joins (some { mask := 1, token := 3 }) none 0).me.unit 0 = some { mask := 1, token := 3 } := by decide +kernel

/-- Lane 0 with the scratch address 0x40 in the register pair v8. -/
def points : State := one (fun b => { b with lit := some { mask := 1 }, v := [(256, 0x40), (288, 0xFFFE0000)] })
/-- The word of `points` is at its first issue. -/
theorem first_issue {s : State} (h1 : ∀ y, s.me.unit s.cur.unit = some y → y.held = none) (h2 : s.myBlock.mirror = none) (h3 : s.fab.reqs = []) (h4 : s.me.late = []) : firstIssue s :=
  ⟨h1, h2, by rw [h3]; nofun, by rw [h4]; nofun⟩
theorem points_first : firstIssue points ∧ points.cur.later = 0 := ⟨first_issue (fun y h => by cases h; rfl) rfl rfl rfl, rfl⟩
theorem witness_lanes (k : Nat) (x : LaneOp) (off : Option Field) (hx : x = op 3 8 0 0 0x22) (ho : off = none) (hk : k = 0 ∨ k = 1 ∨ k = 2) :
    lanesReach k 4 (points.laneAddr x .a off) (fun _ => { sp := .scratch 5, addr := 0x40 }) points ∧ lanesApart 4 (fun _ => { sp := .scratch 5, addr := 0x40 }) points := by
  subst hx ho
  refine ⟨⟨points_first.1, ?_, fun i hi => ?_⟩, fun i j hi hj h => absurd ((only_zero rfl hi).trans (only_zero rfl hj).symm) h⟩
  · rcases hk with rfl | rfl | rfl <;> decide +kernel
  · cases only_zero rfl hi
    exact ⟨by rcases hk with rfl | rfl | rfl <;> decide +kernel, nofun, fun _ => by decide +kernel, none, nofun, by rcases hk with rfl | rfl | rfl <;> decide +kernel⟩
theorem witness_lane_load : (∃ loc, lanesReach 0 4 (points.laneAddr (op 3 8 323 0 2 0) .a (some .b)) loc points)
    ∧ (∃ loc, lanesReach 1 4 (points.laneAddr (op 3 8 323 0 2 0) .a (some .b)) loc points ∧ lanesApart 4 loc points) ∧ Aop.ofCode ((op 3 8 0 0 0x22).mb 0 4) = some .or := by
  refine ⟨⟨fun _ => { sp := .scratch 5, addr := 0x40 }, points_first.1, ?_, fun i hi => ?_⟩,
    ⟨fun _ => { sp := .scratch 5, addr := 0x40 }, ⟨points_first.1, ?_, fun i hi => ?_⟩, fun i j hi hj h => absurd ((only_zero rfl hi).trans (only_zero rfl hj).symm) h⟩, by decide⟩
  · decide +kernel
  · cases only_zero rfl hi; exact ⟨by decide +kernel, nofun, fun _ => by decide +kernel, none, nofun, by decide +kernel⟩
  · decide +kernel
  · cases only_zero rfl hi; exact ⟨by decide +kernel, nofun, fun h => absurd rfl h, none, nofun, by decide +kernel⟩

/-- The same with the lane's access left for later. -/
def postponed : State := { points with cur := { points.cur with later := 1 } }
theorem witness_later : lanesReach 0 4 (postponed.laneAddr (op 3 8 323 0 2 0) .a (some .b)) (fun _ => { sp := .scratch 5, addr := 0x40 }) postponed
    ∧ lanesReach 1 4 (postponed.laneAddr (op 3 8 323 0 2 0) .a (some .b)) (fun _ => { sp := .scratch 5, addr := 0x40 }) postponed ∧ lanesLater (fun _ => { sp := .scratch 5, addr := 0x40 }) postponed := by
  have first : firstIssue postponed := first_issue (fun y h => by cases h; rfl) rfl rfl rfl
  refine ⟨⟨first, ?_, fun i hi => ?_⟩, ⟨first, ?_, fun i hi => ?_⟩, ?_, fun i hi => ?_, fun i j hi hj h => absurd ((only_zero rfl hi).trans (only_zero rfl hj).symm) h⟩
  · decide +kernel
  · cases only_zero rfl hi; exact ⟨by decide +kernel, nofun, fun _ => by decide +kernel, none, nofun, by decide +kernel⟩
  · decide +kernel
  · cases only_zero rfl hi; exact ⟨by decide +kernel, nofun, fun h => absurd rfl h, none, nofun, by decide +kernel⟩
  · decide
  · cases only_zero rfl hi; rfl
/-- R84: the lane's store goes on and is not seen yet, by itself when it is loaded back, and by others when its turn comes. -/
theorem test_st_later : after (.st (op 3 8 323 0 2 0)) postponed (fun t => t.me.late.length == 1 && t.cur.flow == .go) = true := by decide +kernel

/-! Engines and the quadrant. -/

/-- A shape record of 16 bytes at the scratch address 0x2000 in one dimension (in two for a gather of one row). -/
def shapeRec (rank gcount : Nat) : List Byte :=
  toBytes 8 0xFFFE000000002000 ++ toBytes 8 (rank + 2 * 256) ++ toBytes 4 16 ++ (List.replicate 8 (toBytes 4 1)).flatten ++ toBytes 4 0 ++ toBytes 8 1 ++ toBytes 64 0
    ++ toBytes 2 16 ++ (List.replicate 8 (toBytes 2 1)).flatten ++ toBytes 22 0 ++ toBytes 4 0x300 ++ toBytes 4 gcount ++ toBytes 16 0
/-- Lane 0 alone, with the record at 0x40 (v1), a destination at 0x100 (v2), a barrier object at 0x20 (v3), coordinates from v8 on. -/
def copies (rank gcount len : Nat) : State :=
  { one (fun b => { b with v := [(32, 0x40), (64, 0x100), (96, 0x20)] }) (fun k => { k with scratch := (({} : Memory).put 0x40 (shapeRec rank gcount)).put 0x20 [1] }) with
    cores := [(0, { se := [(1, List.replicate len {})] })] }
theorem witness_copy (g : Bool) (hg : g = false) : (∀ i, active i (copies 1 0 31) → (copies 1 0 31).copyFail g ((copies 1 0 31).src (op 8 1 2 3 1) .a i).toNat ((copies 1 0 31).src (op 8 1 2 3 1) .b i).toNat
      ((copies 1 0 31).src (op 8 1 2 3 1) .c i).toNat ((copies 1 0 31).crdOf (op 8 1 2 3 1) i) = none)
    ∧ (((copies 1 0 31).core 0).se.get 1 []).length + popc (copies 1 0 31).cur.act ≤ 32 ∧ ¬ (((copies 1 0 32).core 0).se.get 1 []).length + popc (copies 1 0 32).cur.act ≤ 32 := by
  subst hg
  refine ⟨fun i hi => ?_, ?_, ?_⟩
  · cases only_zero rfl hi; decide +kernel
  · decide +kernel
  · decide +kernel
theorem witness_gather (i : Nat) (h : i = 0) : (copies 2 1 0).copyFail true ((copies 2 1 0).src (op 8 1 2 3 1) .a i).toNat ((copies 2 1 0).src (op 8 1 2 3 1) .b i).toNat
      ((copies 2 1 0).src (op 8 1 2 3 1) .c i).toNat ((copies 2 1 0).crdOf (op 8 1 2 3 1) i) = none := by
  subst h; decide +kernel
theorem witness_fence : ((copies 1 0 0).src (op 3 0 0 0 0x13) .d 0).toNat % 16 = 0 ∧ ((copies 1 0 0).src (op 3 0 0 0 0x13) .d 0).toNat + 16 ≤ (copies 1 0 0).myBlock.scratchSize
    ∧ (copies 1 0 0).myBlock.scratch.num (((copies 1 0 0).src (op 3 0 0 0 0x13) .d 0).toNat + 12) 4 = 0 := by decide +kernel
/-- A load of one row of 16 bytes, started, and what its elements read. -/
def entry : SEntry := { kind := .load, id := 40, blk := 5, shape := Shape.ofBytes (shapeRec 1 0), crd := List.replicate 9 0, dst := 0x100, bo := 0x20, started := true }
def loads (e : SEntry) : State := { st id (fun k => { k with scratch := ({} : Memory).put 0x2000 [7, 8] }) with cores := [(0, { se := [(1, [e])] })] }
theorem witness_done : (((loads { entry with done := true }).core 0).se.get 1 []).find? (fun x => x.done) = some { entry with done := true } ∧ (loads entry).boPoisoned 5 0x20 = false := by decide +kernel
def fenceEntry : SEntry := { kind := .fence, id := 41, blk := 5, bo := 0x20, mask := 2 }
theorem witness_fence_arrives : ((loads fenceEntry).core 0).se.get 1 [] = [fenceEntry] ∧ fenceEntry.hasBo = true ∧ (loads fenceEntry).heldEntry 1 fenceEntry = false
    ∧ (loads fenceEntry).frozenBlock 5 = false ∧ (loads fenceEntry).quietBlock 5 = false ∧ fenceEntry.mask.testBit 1 = true ∧ (loads fenceEntry).boPoisoned 5 0x20 = false
    ∧ ∀ p, p < 4 → fenceEntry.mask.testBit p = true → ∃ f u, ((loads fenceEntry).core 0).se.get p [] = f :: u ∧ f.id = fenceEntry.id := by
  refine ⟨?_, rfl, ?_, ?_, ?_, ?_, ?_, fun p h hp => ?_⟩
  iterate 6 decide +kernel
  have key : ∀ p, p < 4 → (2 : Nat).testBit p = true → p = 1 := by decide
  cases key p h hp; exact ⟨fenceEntry, [], rfl, rfl⟩

/-- Lane 0 alone on a core whose area belongs to the context: v1 = 8 (a size), v2 = 0x400, v3 = 0x20, v4 = 3 (a tile), v5 = 1 (a mask). -/
def matrix (es : List QEntry) (p : Plane := {}) : State :=
  { one (fun b => { b with lit := some { mask := 1 }, v := [(32, 8), (64, 0x400), (96, 0x20), (128, 3), (160, 1)] }) with cores := [(0, { accown := some 2, quad := es, active := p })] }
def plane : Plane := { loaded := true, fmt := 2, k := 8 }
theorem witness_matrix : matrixReady (matrix []) ∧ ((matrix []).core 0).quad.length + popc (matrix []).cur.act ≤ 16
    ∧ (matrix []).mldsFail 2 false ((matrix []).src (op 2 1 0 0 2) .d 0).toNat ((matrix []).src (op 2 1 0 0 2) .a 0).toNat 0 = none
    ∧ (matrix [] plane).mstrFail 2 false ((matrix []).src (op 2 1 0 4 2) .d 0).toNat ((matrix []).src (op 2 1 0 4 2) .a 0).toNat 0 ((matrix []).src (op 2 1 0 4 2) .c 0).toNat = none
    ∧ (matrix []).mdrainFail 0 ((matrix []).src (op 4 2 3) .d 0).toNat ((matrix []).src (op 4 2 3) .a 0).toNat ((matrix []).src (op 4 2 3) .b 0).toNat = none
    ∧ (matrix []).accFail 6 ((matrix []).src (op 4 0 0) .d 0).toNat = none ∧ (matrix []).fuseOk ((matrix []).src (op 5 0 0) .d 0) = true
    ∧ (matrix []).me.unit 0 = some { mask := 1 } ∧ ((matrix [{ blk := 5 }]).core 0).quad.any (fun e => !e.done && e.blk = 5 && e.beam = 0) = true := by
  refine ⟨⟨rfl, rfl, by decide +kernel⟩, ?_, ?_, ?_, ?_, ?_, ?_, ?_, ?_⟩ <;> decide +kernel
def load : QEntry := { kind := .mlds, id := 50, blk := 5, fmt := 2, size := 8, off := 0x400, started := true }
def stream : QEntry := { kind := .mstr, id := 51, blk := 5, fmt := 2, size := 1, off := 0x400, tile := 3, started := true }
def drain : QEntry := { kind := .mdrain, id := 52, blk := 5, off := 0x400, bo := 0x20, tile := 3 }
theorem witness_quadrant : ((matrix [load]).core 0).lead = 0
    ∧ (matrix [load]).nextQ 0 (fun _ x => x.kind = .mlds && x.started) = some load ∧ (∃ rows, (matrix [load]).loadRows load 32 0 [] = .ok rows)
    ∧ (matrix [{ load with kind := .mflip }]).nextQ 0 (fun b x => x.kind = .mflip && b.all (fun y => y.kind != .mlds && y.kind != .mflip && y.kind != .mfuse && (y.kind != .mstr || State.streamed y))) = some { load with kind := .mflip }
    ∧ (matrix [{ stream with started := false }] plane).nextQ 0 State.startsNow = some { stream with started := false } ∧ ((matrix [] plane).core 0).active.loaded = true
    ∧ (matrix [drain]).nextQ 0 State.startsNow = some drain ∧ ((matrix [drain]).core 0).accPoison = []
    ∧ (matrix [stream] plane).nextQ 0 State.startsNow = none ∧ (matrix [stream] plane).nextQ 0 (fun _ x => x.kind = .mstr && x.started && x.row < x.size) = some stream
    ∧ ((matrix [stream] plane).tileRow 5 (stream.off + stream.row * mPitch 2 8) 8 (mWidth 2)).isSome = true
    ∧ (matrix [{ stream with row := 1 }] plane).nextQ 0 (fun _ x => x.kind = .mstr && State.streamed x) = some { stream with row := 1 }
    ∧ (matrix [{ stream with kind := .mzero }]).nextQ 0 (fun _ x => x.kind = .mzero && x.started) = some { stream with kind := .mzero }
    ∧ (matrix [{ drain with row := 32 }]).nextQ 0 (fun b x => x.kind = .mdrain && x.row = 32 && b.isEmpty) = some { drain with row := 32 } ∧ (matrix [drain]).boPoisoned 5 0x20 = false := by
  refine ⟨?_, ?_, ⟨_, rfl⟩, ?_, ?_, ?_, ?_, ?_, ?_, ?_, ?_, ?_, ?_, ?_, ?_⟩ <;> decide +kernel
/-- A fusion of cores 0 and 1, and its end. -/
def fuse (m : Nat) : QEntry := { kind := .mfuse, id := 53, blk := 5, mask := m }
def fusing (m : Nat) : State := { matrix [fuse m] with cores := [(0, { accown := some 2, quad := [fuse m] }), (1, { accown := some 2 })] }
theorem witness_fuse : (fusing 1).nextQ 0 (fun b x => x.kind = .mfuse && b.isEmpty) = some (fuse 1) ∧ (fuse 1).mask = 2 ^ (0 % 4)
    ∧ (∀ x, x ∈ ((fusing 1).core 0).quad → x.done = true ∨ (fuse 1).id ≤ x.id)
    ∧ (fusing 3).nextQ 0 (fun b x => x.kind = .mfuse && b.isEmpty) = some (fuse 3) ∧ State.followers 0 (fuse 3).mask = [1] ∧ (fuse 3).mask ≠ 2 ^ (0 % 4)
    ∧ (∀ x, x ∈ ((fusing 3).core 0).quad ++ ((fusing 3).core 1).quad → x.done = true ∨ (fuse 3).id ≤ x.id)
    ∧ ((fusing 3).core 1).lead = 0 ∧ ((fusing 3).core 1).follow = none ∧ ((fusing 3).core 1).accown = some ((fusing 3).ctxOf 5) := by decide +kernel
theorem witness_mwait : (∃ y, ((st (fun b => { b with lit := some { mwait := some 9 } })).beamAt 5 0).lit = some y ∧ y.mwait = some 9)
    ∧ ((st).core 0).quad.any (fun x => !x.done && x.blk = 5 && x.beam = 0 && x.id < 9) = false := ⟨⟨{ mwait := some 9 }, rfl, rfl⟩, by decide +kernel⟩
/-- A core whose area another context asks for, with tile 3 of the block live. -/
def asked : State := { st with cores := [(0, { accown := some 2, accReq := some 6, acclive := [3] })] }
theorem witness_exchange : (asked.core 0).accReq = some 6 ∧ (asked.core 0).accown = some 2 ∧ asked.ownerBusy 0 = false
    ∧ (∀ k, k ∈ asked.blocks → k.2.core = 0 → asked.ctxOf k.1 = 6 → k.2.img.spilled = []) ∧ asked.ctxOf 5 = 2 ∧ (asked.core 0).acclive.contains (asked.tileOf 5 3) = true := by decide +kernel

/-! Lantern words, events of beams, ends of blocks, placement, mirrors. -/

/-- A die whose Lantern runs filter 20, which declares a histogram, a sampler and a trigger. -/
def decls : List Decl := [{ kind := 1 }, { kind := 4, mode := 3 }, { kind := 5, param := 100 }]
def filter : Filter := { tenant := 3, die := 0, evtype := 5, decls := decls, words := [0x80000000], exaddr := 0x1000 }
def lanternRun (f : Filter) : State :=
  { st with filters := [(20, f)], dies := [(0, { lan := { run := some 20, evt := List.replicate 12 9, words := 4 } })], cur := { die := 0 } }
theorem witness_lantern : (lanternRun filter).lan.run = some 20 ∧ (lanternRun filter).filters.find 20 = some filter ∧ filter.decls[(2 : BitVec 12).toNat]? = some { kind := 5, param := 100 }
    ∧ ((lanternRun { filter with objs := [(2, { armed := false })] }).filters.get 20 default).objs.get 2 {} = { armed := false }
    ∧ (filter.objs.get 2 {}).armed = true ∧ (filter.objs.get 2 {}).fires = 0
    ∧ ((lanternRun filter).evTime - 0).toNat ≠ 0 := by decide +kernel

theorem witness_region : (st).onCore 5 = true ∧ (st).ladderOf 5 = none ∧ ((st (fun b => { b with regions := [{}] })).beamAt 5 0).regions = [{}] ∧ ((st).beamAt 5 0).running = false
    ∧ ~~~((st).beamAt 5 0).dead &&& ~~~((st).beamAt 5 0).retired ≠ 0 ∧ ~~~((st (fun b => { b with dead := 0xFFFFFFFF })).beamAt 5 0).dead &&& ~~~((st).beamAt 5 0).retired = 0 := by decide +kernel
/-- A beam with a fragment in record 63, another record to clear, and one claim that fits. -/
def frags (b : Beam) : Beam := { b with frags := [(63, { queued := true })], clears := [2] }
theorem witness_fragments : ((st frags).beamAt 5 0).frags.find 63 = some { queued := true } ∧ ((mapped (st frags recs)).beamAt 5 0).clears.contains 2 = true
    ∧ (mapped (st frags recs)).taskView 1 ((mapped (st frags recs)).recordVa 5 0 2 + 10) ((mapped (st frags recs)).xlat 2 3 ((mapped (st frags recs)).recordVa 5 0 2 + 10) true) = .ok { sp := .phys, addr := 0x3002A } (some (3, 0x20000, 0))
    ∧ State.parkedClaims ((st (fun b => { b with spark := .claim 1 12 })).block 5) = [(1, 0, 12)] ∧ 12 ≤ ((st (fun b => { b with spark := .claim 1 12 })).block 5).reserve := by decide +kernel
theorem witness_replay : ((mapped (st (fun b => { b with spark := .fault 1 false }))).beamAt 5 0).spark = .fault 1 false ∧ (mapped (st)).pagesReady 5 [1] = true
    ∧ ((st (fun b => { b with lit := some { held := some { pages := [1], ready := false } } })).beamAt 5 0).lit = some { held := some { pages := [1], ready := false } } := by decide +kernel
/-- A beam with one overflowed watch, signalled, of a line that holds zeros. -/
def overflowed (snap : List Byte) (w : Option Nat) (b : Beam) : Beam := { b with watch := [{ loc := { sp := .scratch 5, addr := 0x40 }, ovf := true, snap := snap, signalled := true }], overWake := w }
theorem witness_overflow : (st (overflowed [] none)).onCoreOf 0 = (st (overflowed [] none)).blocks ∧ ((st (overflowed [] none)).block 5).beams = [(0, (st (overflowed [] none)).beamAt 5 0)]
    ∧ ((st (overflowed [] none)).beamAt 5 0).watch.length = 1 ∧ (st (overflowed [] none)).peek { sp := .scratch 5, addr := 0x40 } 64 ≠ []
    ∧ (st (overflowed (List.replicate 64 0) (some 0))).peek { sp := .scratch 5, addr := 0x40 } 64 = List.replicate 64 0 ∧ (st (overflowed [] none)).now < 0 + 10000 := by decide +kernel

theorem witness_retire : (st (fun b => { b with exited := true })).onCore 5 = true ∧ ((st (fun b => { b with exited := true })).block 5).trig = true ∧ (st).seOf 5 = []
    ∧ ((st (fun b => { b with exited := true })).block 5).liveBeams = [] ∧ ((st).core ((st).coreOf 5)).follow = none ∧ ((st).core ((st).coreOf 5)).boPend.any (fun u => u.blk = 5) = false
    ∧ ((st).core ((st).coreOf 5)).quad.any (fun e => e.blk = 5) = false := by decide +kernel
/-- A block stopped by a trap that no handler takes; `d` says whether its context has a debugger. -/
def unhandled (d : Bool) (h : Halt) : State := { st id (fun k => { k with halt := some h }) with ctxs := [(2, { tenant := 3, cid := 7, dies := 1, dbg := d })] }
theorem witness_terminate : (unhandled true { cause := some {} }).stopped 5 = true ∧ (unhandled true { cause := some {} }).handled 5 = false ∧ (unhandled true { cause := some {} }).accessesDone 5 = true
    ∧ ((unhandled true {}).ctxs.get ((unhandled true {}).ctxOf 5) default).dbg = true ∧ ((st).ctxs.get ((st).ctxOf 5) default).dbg = false := by decide +kernel
theorem witness_debug : ((st).block 5).liveBeams.head? = some 0 ∧ ((st).block 5).causes = [] ∧ ((unhandled true { stage := .debug }).block 5).halt = some { stage := .debug }
    ∧ ((st (fun b => { b with lit := some {} })).beamAt 5 0).unitIds = [0] := by decide +kernel

/-- A ready task of one block of one beam, in a context with a page to save it in, on a core its tenant may use. -/
def launch : Launch := { Launch.ofBytes (record 0 0) with nblocks := 1 }
def ready : State :=
  { st with
    blocks := [], tasks := [(1, { ctx := 2, tenant := 3, prog := 4, dies := 1, lr := launch, ready := some 1 })]
    tenants := [(3, { hard := 1 })], ctxs := [(2, { tenant := 3, dies := 1, savebytes := 0x20000, area := [0, 1] })] }
theorem witness_placement : (ready.tasks.find 1).isSome = true ∧ (ready.task 1).ready.isSome = true ∧ (ready.task 1).lr.blocks = 1 ∧ (ready.task 1).lr.mirror = false ∧ (ready.task 1).placed = 0
    ∧ ready.firstReady 1 = true ∧ ready.ladders.find 2 = none ∧ ready.ladders.find 4 = none ∧ (ready.task 1).die = none ∧ ready.groupOn 1 0 = false ∧ ready.canStand 1 0 1 = true
    ∧ 0 < (ready.task 1).lr.beams := by decide +kernel

/-- A mirrored pair of which block 5 has trapped a millisecond ago. -/
def pair : State :=
  { st with
    reftime := 100000
    blocks := [(5, { blk with beams := [(0, beam)], mirror := some { partner := 6 }, halt := some { cause := some { grp := 10 }, stage := .partner } }),
               (6, { blk with beams := [(0, beam)], core := 4, mirror := some { partner := 5, primary := false } })]
    ckpts := [(5, { blk with beams := [(0, beam)] }), (6, { blk with beams := [(0, beam)], core := 4 })] }
theorem witness_pair : (5 : Nat) ≠ 6 ∧ pair.onCore 5 = true ∧ (pair.block 5).halt = some { cause := some { grp := 10 }, stage := .partner } ∧ 0 + 100000 ≤ pair.now ∧ pair.stopped 6 = false
    ∧ (pair.block 5).mirror = some { partner := 6 } ∧ (pair.block 6).mirror = some { partner := 5, primary := false } ∧ (pair.ckpts.get 5 default).beams.find 0 = some beam ∧ (pair.ckpts.find 5).isSome = true := by decide +kernel

/-! The ladder, tests and trips. -/

/-- A block at its yield, with a ladder of its context at a step. -/
def laddered (l : Ladder) (f : Beam → Beam := fun b => { b with spark := .yield }) (g : Block → Block := id) : State := { st f g with ladders := [(2, l)] }
def stop1 (c : StopCause) : Ladder := { step := 1, cause := c, blocks := [5], deadline := some 0 }
theorem witness_knock : (st).ctxs.find 2 = some { tenant := 3, cid := 7, dies := 1 } ∧ (st).ladders.find 2 = none ∧ (st).blocksOf (fun i => (st).ctxOf i = 2) = [5]
    ∧ (2 : Nat) < 2 ^ 32 ∧ (st).onCluster 0 = [5] ∧ (st).groupsOf ((st).blocksOf (fun i => (st).coreOf i = 0)) = [5] ∧ (st).tests.find 0 = none := by decide +kernel
theorem witness_quiet (l : Ladder) : quietBlock 5 (laddered l) := by
  refine ⟨rfl, rfl, rfl, rfl, nofun, fun e h => ?_⟩
  cases h with
  | head => exact ⟨rfl, rfl⟩
  | tail _ h => cases h
theorem witness_boundary : (laddered (stop1 .migration)).ladders.find 2 = some (stop1 .migration) ∧ (laddered (stop1 .migration)).onCore 5 = true
    ∧ ((laddered (stop1 .migration)).block 5).trig = true ∧ (laddered (stop1 .migration)).atBoundary 5 = true ∧ ((laddered (stop1 .migration)).block 5).liveBeams ≠ []
    ∧ 0 ≤ (laddered (stop1 .migration)).now ∧ ((laddered { stop1 .migration with step := 2 } id (fun k => { k with halt := some {} })).block 5).halt = some {} := by decide +kernel
theorem witness_evict : ({ laddered { stop1 .migration with step := 2 } with reftime := 200000 } : State).ladders.find 2 = some { stop1 .migration with step := 2 } ∧ 0 + 200000 ≤ ({ laddered { stop1 .migration with step := 2 } with reftime := 200000 } : State).now := by decide +kernel
/-- A saved block that waits to be restored. -/
def saved : State := { laddered { stop1 .migration with step := 3 } (fun b => { b with spark := .yield }) (fun k => { k with resident := false }) with tenants := [(3, { hard := 1 })] }
theorem witness_restore : saved.blocks.find 5 = some (saved.block 5) ∧ (saved.block 5).beams = [(0, { beam with spark := .yield })] ∧ (saved.block 5).img = {} ∧ saved.groupFits (saved.ladderCtx 2) 0 [5] = true
    ∧ (saved.block 5).resident = false ∧ (saved.block 5).ended = false := by decide +kernel
def tested (f : FieldTest) (n : Bool) (g : Beam → Beam := fun b => { b with spark := .yield }) : State := { st g with tests := [(0, f)], ctxs := [(2, { tenant := 3, cid := 7, dies := 1, nopre := n })] }
theorem witness_tests : (tested { next := some 0 } false).tests.find 0 = some { next := some 0 } ∧ 0 ≤ (tested { next := some 0 } false).now ∧ (tested {} false).atBoundary 5 = true
    ∧ ((tested {} false).ctxs.get ((tested {} false).ctxOf 5) default).nopre = false ∧ (tested { deferrals := 2 } true).testBlocked 0 { deferrals := 2 } = true ∧ (tested {} true).testBlocked 0 {} = true
    ∧ (tested { running := true } false).ladders = [] ∧ (tested {} false).ladderOf 5 = none ∧ (tested {} false).ladders.find (State.testKey 0 2) = none
    ∧ (∀ e ∈ (laddered (stop1 .migration)).ladders, e.1 / 2 ^ 32 ≠ 0 + 1) := by decide +kernel

/-! Tasks and memory. -/

def deferred (c : Nat) : State :=
  { st with dies := [(0, { deferred := [(3, 2, 0x40)] })], tasks := [(1, { ctx := 2, tenant := 3, prog := 4, addr := 0x40, count := c })] }
theorem witness_deferred : ((deferred 0).die 0).deferred = [(3, 2, 0x40)] ∧ (deferred 0).tableFree 0 = true
    ∧ (deferred 0).tasks.any (fun e => e.2.tenant = 3 && e.2.addr = 0x40 && decide (0 < e.2.count)) = false ∧ (deferred 0).credits.any (fun c => c.tenant = 3 && c.addr = 0x40) = false
    ∧ (deferred 1).tasks.first (fun _ e => e.tenant = 3 && e.addr = 0x40 && 0 < e.count && !e.ended) = some (1, (deferred 1).task 1) := by decide +kernel
def finishing (kids : List Nat) (past : Bool) : State :=
  { st with blocks := [], tasks := [(1, { ctx := 2, tenant := 3, prog := 4, kids := kids, retired := 1, lr := { nblocks := 1 } }), (8, { ended := past, joined := past && kids.isEmpty })] }
theorem witness_taskEnd : (finishing [] true).tasks.find 1 = some ((finishing [] true).task 1) ∧ ((finishing [] true).task 1).lr.blocks ≤ ((finishing [] true).task 1).retired ∧ ((finishing [] true).task 1).succ = []
    ∧ ((finishing [] true).task 1).kids.all (fun c => ((finishing [] true).task c).joined) = true ∧ ((finishing [8] true).task 1).kids.find? (fun c => !((finishing [8] true).task c).joined) = some 8
    ∧ ((finishing [8] true).task 8).ended = true ∧ ((finishing [8] true).task 8).rev = none := by decide +kernel
theorem witness_fork_timeout : ({ st (fun b => { b with spark := .fork 0 1 2 }) with reftime := 100000 } : State).now = 100000 ∧ ((st (fun b => { b with spark := .fork 0 1 2 })).beamAt 5 0).spark = .fork 0 1 2 := by decide +kernel
theorem witness_rebuild : (mapped (st)).maps.any (fun e => decide (e.2.tenant = 3) && e.2.rebuild) = false
    ∧ ({ mapped (st) with maps := [(10, { tenant := 3, rebuild := true })] } : State).maps.any (fun e => decide (e.2.tenant = 3) && e.2.rebuild) = true := by decide +kernel
theorem witness_log_space : (({ st with tenants := [(3, { full := true, dllog2 := 1, dlTail := 1 })] } : State).tenant 3).full = true
    ∧ ((({ st with tenants := [(3, { full := true, dllog2 := 1, dlTail := 1 })] } : State).tenant 3).dlTail + 2 ^ 32 - (st).hostNum 0 4) % 2 ^ 32 < 2 ^ 1 := by decide +kernel
theorem witness_scrub : (({ st with dies := [(0, { scrubq := [.page 7 1] })] } : State).die 0).scrubq = [.page 7 1] ∧ dieOfPage 7 = 0 ∧ (1 : Nat) ≠ 0 ∧ (({ st with dies := [(0, { scrubq := [.page 7 0, .granules 0 5] })] } : State).die 0).scrubq = [.page 7 0, .granules 0 5]
    ∧ (st).pageBad 7 = false ∧ ((st).die 0).retired.contains 7 = false ∧ (({ st with dies := [(0, { scrubq := [.page 7 0], retired := [7] })] } : State).die 0).retired.contains 7 = true := by decide +kernel
def row : RowId := { die := 0, stack := 2, channel := 31, row := 9 }
def weak (rep : Bool) (d : Die := {}) : State := { st with dies := [(0, { d with rows := [{ row := row, due := true, repaired := rep }] })] }
theorem witness_repair : ((weak false).die row.die).quiesce = none ∧ (weak false).qualifies row = true ∧ ((weak false).rowSt row).repaired = false ∧ ((weak true).rowSt row).repaired = true
    ∧ ((weak true).die row.die).hard.contains row = false ∧ ((weak true).die row.die).retire.contains row = false ∧ (((weak true).die row.die).hard.filter (fun x => x.stack = row.stack)).length < 1024
    ∧ ((weak false { quiesce := some (row, 0) }).die row.die).quiesce = some (row, 0) ∧ 0 ≤ (weak false).now := by decide +kernel

/-! Records and the Reconciler. -/

def rootBytes : List Byte := toBytes 8 0x0001_53444D48 ++ toBytes 8 0 ++ toBytes 8 0x2000 ++ toBytes 8 1 ++ toBytes 8 0x3000 ++ toBytes 8 256 ++ toBytes 8 0x4000 ++ toBytes 8 6
def rooted : State := { st with blocks := [], host := ({} : Memory).put 0x1000 rootBytes, spdm := { verified := true } }
def root : Root := { areatab := 0x2000, nareas := 1, markbase := 0x3000, nmarks := 256, cfbase := 0x4000, cflog2 := 6 }
theorem witness_root : rooted.recon.rooted = false ∧ rooted.spdm.verified = true ∧ (0x1000 : BitVec 64).toNat % 4096 = 0 ∧ root.nareas = 1 ∧ State.areaOf (rooted.host.bytes root.areatab 32) 0 root.nmarks [] = some {} := by decide +kernel
/-- A TENANT record, version 2, id 9, of tenant 3. -/
def tenantRec : List Byte := toBytes 8 2 ++ toBytes 2 257 ++ toBytes 2 0 ++ toBytes 4 9 ++ toBytes 2 3 ++ toBytes 46 0 ++ toBytes 2 3 ++ toBytes 30 0 ++ toBytes 1 6 ++ toBytes 159 0
/-- One area of one slot at 0x5000, empty but for the record. -/
def area : Area := { index := 0, base := 0x5000, count := 1 }
def offered (x : Slot) : State := { st with blocks := [], tenants := [], host := ({} : Memory).put 0x5100 (tenantRec.take 97), recon := { dsrroot := 0x1000, rooted := true, root := some root, areas := [area], slots := [(1, x)], due := true } }
theorem witness_slot : (offered {}).recon.areas = [area] ∧ area.count = 1 ∧ (1 : Nat) = 65536 * area.index + 1 ∧ newRecord 1 tenantRec true (offered {})
    ∧ (0x1000 : BitVec 64).toNat / 64 ≠ (0x5000 : BitVec 64).toNat / 64 ∧ area.base / 64 = (0x5000 : BitVec 64).toNat / 64 ∧ ((offered { retries := 16 }).slot 1).retries ≠ 0
    ∧ newRecord 1 tenantRec true (offered { retries := 16 }) := by
  refine ⟨rfl, rfl, rfl, ⟨?_, ?_, ?_, ?_, ?_, ?_⟩, ?_, ?_, ?_, ⟨?_, ?_, ?_, ?_, ?_, ?_⟩⟩ <;> decide +kernel
theorem witness_odd_record : ({ offered { retries := 1 } with host := ({} : Memory).put 0x5100 [3] } : State).readRecord 1 = some (3 :: List.replicate 255 0, true) ∧ recVer (3 :: List.replicate 255 0) % 2 = 1 := by decide +kernel
theorem witness_pass : recId tenantRec = 9 ∧ recKind tenantRec = 1 ∧ recLive tenantRec = true ∧ recDeps tenantRec = [] ∧ (offered { want := tenantRec, todo := true, hv := true }).recordFault 1 = none
    ∧ (offered { want := tenantRec, todo := true, hv := true }).tenantClash (recTenant tenantRec) (Tenant.ofRec tenantRec {}) = false := by decide +kernel
/-- A slot whose object is in force, and is being torn down. -/
def slotOfKind (kind : Nat) : List Byte := toBytes 8 2 ++ toBytes 2 (kind + 256) ++ toBytes 2 0 ++ toBytes 4 9 ++ toBytes 2 3 ++ toBytes 238 0
def unmaking (kind job : Nat) : State := { st with blocks := [], tasks := [], maps := [(9, { tenant := 3 })], recon := { root := some root, slots := [(1, { inforce := slotOfKind kind, state := 3, job := job })], stopping := [9] } }
theorem witness_shootdown : (unmaking 3 1).recon.slots.first (fun _ y => y.alive && recKind y.inforce = 3 && recId y.inforce = 9) = some (1, (unmaking 3 1).slot 1) ∧ (unmaking 3 1).maps.find 9 = some { tenant := 3 }
    ∧ (unmaking 3 1).landed [] = true ∧ (unmaking 3 1).gateHolds { tenant := 3 } = false ∧ ((unmaking 3 1).slot 1).job = 1 := by decide +kernel
theorem witness_tenantStop : (unmaking 1 1).recon.slots.first (fun _ y => y.alive && recKind y.inforce = 1 && recId y.inforce = 9) = some (1, (unmaking 1 1).slot 1) ∧ (unmaking 1 1).recon.stopping.contains 9 = true
    ∧ (unmaking 1 1).noUsers 1 = true ∧ (unmaking 1 1).blocksOf (fun b => (unmaking 1 1).tenantOf b = 3) = [] ∧ (unmaking 1 1).anyTask (fun t => t.tenant = 3) = false := by decide +kernel
/-- A CONTEXT record that waits for two pages of die 0. -/
def ctxRec : List Byte := toBytes 8 2 ++ toBytes 2 258 ++ toBytes 2 0 ++ toBytes 4 9 ++ toBytes 2 3 ++ toBytes 46 0 ++ toBytes 4 7 ++ toBytes 4 1 ++ toBytes 8 0x20000 ++ toBytes 176 0
def awaiting : State :=
  { st with tenants := [(3, { recId := 8 })], dies := [(0, { clean := [(0, 2)], waitq := [9] })]
            recon := { root := some root, slots := [(1, { want := ctxRec, job := 4, hv := true, state := 1 }), (2, { inforce := slotOfKind 1 |>.set 12 8, state := 3 })] } }
theorem witness_grant : (awaiting.die 0).waitq = [9] ∧ (9 : Nat) < 2 ^ 40 ∧ awaiting.recon.slots.first (fun _ y => (y.job = 3 || y.job = 4) && recId y.want = 9) = some (1, awaiting.slot 1) ∧ recKind ctxRec = 2
    ∧ awaiting.depsMet ctxRec true = true ∧ awaiting.ctxs.find 9 = none ∧ (List.range 4).find? (fun d => (numAt ctxRec 68 1).testBit d) = some 0 ∧ 65536 ≤ numAt ctxRec 72 8
    ∧ numAt ctxRec 72 8 / 65536 ≤ awaiting.poolPages 0 ∧ takeRanges (numAt ctxRec 72 8 / 65536) (awaiting.die 0).clean = ([0, 1], []) := by decide +kernel
def progRec : List Byte := toBytes 8 2 ++ toBytes 2 260 ++ toBytes 2 0 ++ toBytes 4 4 ++ toBytes 240 0
def loadingProg : State := { st with recon := { root := some root, slots := [(1, { want := progRec, job := 4, hv := true, state := 1 })] } }
theorem witness_load : loadingProg.recon.slots.first (fun _ y => y.job = 4 && recKind y.want = 4 && recId y.want = 4) = some (1, loadingProg.slot 1) ∧ loadingProg.depsMet progRec true = true
    ∧ ∃ u, (loadingProg.setMark 1 (fun y => { y with state := 1, obsv := recVer progRec })).loadProgram progRec = .done u := by
  refine ⟨?_, ?_, ⟨_, rfl⟩⟩ <;> decide +kernel

/-! Lantern events and the fabric. -/

def idle (l : Lantern) (f : Filter := filter) : State := { st with filters := [(20, f)], dies := [(0, { lan := l })], tenants := [(3, { lbud := 1 })] }
def event : LEvent := { code := 5, ctx := 7, tenant := 3, place := 0, cycles := 0, f8 := 1, f9 := 2, f10 := 3, f11 := 4 }
theorem witness_intake : (idle {}).filters.filter (fun x => decide (x.2.die = 0) && x.2.takes event.code.toNat event.tenant.toNat) ≠ [] ∧ (idle {}).filters.filter (fun x => decide (x.2.die = 0) && x.2.takes 6 3) = []
    ∧ ((idle {}).lantern 0).intook = false ∧ ((idle {}).lantern 0).fifo.length < 256 ∧ 256 ≤ ((idle { fifo := List.replicate 256 [5] }).lantern 0).fifo.length := by decide +kernel
theorem witness_runs : ((idle { fifo := [[5]] }).lantern 0).run = none ∧ ((idle { fifo := [[5]] }).lantern 0).window = (idle {}).now / 100000 ∧ ((idle { fifo := [[5]] }).lantern 0).todo = [] ∧ ((idle { todo := [20] }).lantern 0).todo = [20]
    ∧ (idle { todo := [20] }).filters.get 20 default = filter ∧ filter.words.length + ((idle { todo := [20] }).lantern 0).spent.get filter.tenant 0 ≤ ((idle {}).tenant filter.tenant).lbud
    ∧ ((idle { spent := [(3, 1)] }).tenant filter.tenant).lbud < filter.words.length + ((idle { spent := [(3, 1)] }).lantern 0).spent.get filter.tenant 0 ∧ filter.tenant ≠ 0 ∧ filter.words.length ≠ 0
    ∧ (({ idle {} with reftime := 100000 } : State).lantern 0).window < ({ idle {} with reftime := 100000 } : State).now / 100000 := by decide +kernel
theorem witness_export : (idle {} { filter with tenant := 0, due := true, decls := [{ kind := 3 }] }).filters.find 20 = some { filter with tenant := 0, due := true, decls := [{ kind := 3 }] } := by decide +kernel

/-- This package is node 65, and node 66 of its domain is a peer that is up and may reach 4 KiB from 0. -/
def joined (p : Peer := { state := 1, node := 66 }) : State := { st with fab := { node := some 65, peers := [(2, p)], opened := [(66, 0, 4096)] } }
def message (o : BitVec 4) (size : BitVec 8) (data : List Byte) : FMsg :=
  { op := o, aop := 0, size := size, dst := 65, src := 66, tag := 9, addr := 0x80, poison := false, reserved := false, data := data }
/-- What a message of each op carries, and a port with its flits. -/
def payload (o : BitVec 4) : List Byte := if o = 1 ∨ o = 6 then [] else if o = 10 then [1] else toBytes 8 1
def front (m : FMsg) (p : Peer := { state := 1, node := 66 }) : State :=
  { joined p with fab := { (joined p).fab with links := [(3, { rx := [(0, (flitBodies (flitsOf m) (fmsgBytes m)).map (fun b => { body := b, lseq := 0, vc := 0, head := true, idle := false, nak := false, ack := 0, xoff := 0, rsv := false, crc := 0 }))] })] } }
theorem witness_arrives (o : BitVec 4) : arrives o.toNat (message o 8 (payload o)) (front (message o 8 (payload o))) := by
  have key : ∀ o : BitVec 4, ((front (message o 8 (payload o))).portOf (message o 8 (payload o))).isSome = true ∧ ((front (message o 8 (payload o))).peer 66).state ≠ 3 := by decide +kernel
  refine ⟨rfl, (key o).1, rfl, fun _ => rfl, fun _ => rfl, (by decide : (8 : BitVec 8).toNat ≤ 128), rfl, (by decide : (66 : BitVec 12).toNat / 64 = (65 : BitVec 12).toNat / 64), fun _ h => absurd h (key o).2⟩
/-- R351: a WRITE that carries the poison bit is dropped and counted. -/
theorem test_poisoned_write : after (.fabricWrite { message 2 8 (payload 2) with poison := true }) (front { message 2 8 (payload 2) with poison := true })
    (fun t => t.fab.dropped == 1 && t.mem.num 0x80 8 == 0 && (t.link 3).rx.get 0 [] == []) = true := by decide +kernel
theorem witness_request : firstTime (message 1 8 []) (joined) ∧ (joined).openTo (message 1 8 []) 8 = true ∧ ({ joined with fab := { (joined).fab with opened := [] } } : State).openTo (message 1 8 []) 8 = false
    ∧ (joined).openTo (message 6 8 []) 1 = true ∧ (joined).fab.regs.length < 65536 ∧ Aop.ofCode (message 3 8 []).aop.toNat = some .add ∧ (message 3 8 []).aop ≠ 9 ∧ (joined).mem.bad 64 0x80 8 = false := by
  refine ⟨⟨?_, ?_⟩, ?_, ?_, ?_, ?_, ?_, ?_, ?_⟩ <;> decide +kernel
theorem witness_peer : (joined { state := 2, node := 66, inc := 1 }).peer 66 = { state := 2, node := 66, inc := 1 } ∧ BitVec.ofNat 64 (numAt (message 9 8 (toBytes 8 1)).data 0 8) = 1
    ∧ (joined { state := 3, node := 66 }).peer 66 = { state := 3, node := 66 } ∧ (joined).peer 66 = { state := 1, node := 66 } ∧ ({ joined with reftime := 1000 } : State).now = 0 + 1000
    ∧ ({ joined { state := 2, node := 66 } with reftime := 500000000 } : State).now = 0 + (joined).fab.limit ∧ ({ joined with reftime := 200 } : State).fab.beat + 200 ≤ ({ joined with reftime := 200 } : State).now := by decide +kernel
/-- Example 23.1: the bytes of an ATOMIC, and of the head flit that carries it. -/
def example231 : FMsg := { op := 3, aop := 0, size := 4, dst := 9, src := 5, tag := 7, addr := 0x123440, poison := false, reserved := false, data := [1, 0, 0, 0] }
theorem test_example_23_1 : fmsgBytes example231 = [0x03, 0x04, 0x09, 0, 0x05, 0, 0x07, 0, 0x40, 0x34, 0x12, 0, 0, 0, 0, 0, 1, 0, 0, 0] ∧ fmsgOfBytes (flitBody (fmsgBytes example231)) = example231
    ∧ (match (({ nextSeq := 0x2A, acked := 0x15 } : Link).putFlit 0 true (fmsgBytes example231)).tx with
        | [f] => (flitBytes f).drop 56 == [0x2A, 0x20, 0x15, 0] && (flitBytes f).take 20 == fmsgBytes example231 && crcGood f
        | _ => false) = true := by decide +kernel
/-- A flit of R350 with a good CRC, and one with a bad one. -/
def flit (crc : BitVec 32) : Flit := { body := List.replicate 56 0, lseq := 0, vc := 1, head := true, idle := false, nak := true, ack := 2047, xoff := 2, rsv := false, crc := crc }
theorem witness_link : crcGood (flit 0xC38EFD65) = true ∧ crcGood (flit 0xC38EFD64) = false ∧ (flit 0).lseq.toNat = ((joined).link 3).expect ∧ 64 ≤ ((({ joined with fab := { links := [(3, { rx := [(1, List.replicate 64 (flit 0))] })] } } : State).link 3).rx.get (flit 0).vc.toNat []).length
    ∧ physOk 0x80 8 = true ∧ (15 : Nat) < 16 ∧ (100 : Nat) ≤ 100 ∧ ((joined).peer 7).state = 0 := by decide +kernel

/-! Steps. -/

theorem witness_kept : State.ordersLate (.sadd 3 4 4) = false ∧ State.ordersLate (.sfence .sc .pkg) = true ∧ State.ordersLate (.rgive 1) = false ∧ State.ordersLate (.lmark (op 0 0 0)) = false ∧ State.isPlainStore (.sst 3 6 .w64 8) = true := by decide
theorem witness_scalar_turn : (st).mayScalar 5 0 = true ∧ (st).blocks.find 5 = some ((st).block 5) ∧ ((st).block 5).beams.find 0 = some ((st).beamAt 5 0) ∧ ((st).codeOf 5).scode[((st).beamAt 5 0).spc.toNat]? = some 0x00642000
    ∧ decodeScalar (0x00642000 : W32).toNat = .ok (.sadd 3 4 4) := by
  refine ⟨?_, ?_, ?_, ?_, rfl⟩ <;> decide +kernel
def mwaits : State := { st (fun b => { runs b with role := 2 }) with progs := [(4, { versions := [(0, { lcode := [0x70B1800000000000_00000000] })] })] }
theorem witness_lane_turn : mwaits.mayLane 5 0 0 = true ∧ (mwaits.beamAt 5 0).unit 0 = some { mask := 0xFFFFFFFF } ∧ (mwaits.beamAt 5 0).regions = [{}] ∧ (mwaits.codeOf 5).lcode[(0 : W64).toNat]? = some 0x70B1800000000000_00000000
    ∧ (mwaits.laneErr 0x70B1800000000000_00000000 = .ok { pred := 7, neg := false, y := false, body := .one (.mwait (op 0 0 0)) }) ∧ uqFields (.mwait (op 0 0 0)) = [] ∧ Sys2Proof.Machine.boundsCause mwaits (.mwait (op 0 0 0)) = none ∧ State.accessMasked mwaits 0 [] (.mwait (op 0 0 0)) = none := by
  refine ⟨?_, ?_, ?_, ?_, rfl, rfl, rfl, rfl⟩ <;> decide +kernel
theorem witness_lantern_turn : (lanternRun filter).lan.run = some 20 ∧ (((lanternRun filter).filters.get 20 default).words)[((lanternRun filter).lantern 0).wordIx]? = some 0x80000000 ∧ decodeLantern 0x80000000 = some .gend := by decide +kernel
theorem witness_encode : (Instr.sadd 31 31 31).wf = true ∧ encode32 (.sadd 31 31 31) = some 0x03FFF800 ∧ (Instr.iadd (op 319 383 511)).wf = true ∧ (Instr.iadd (op 319 383 511)).longForm = true
    ∧ (Instr.iadd (short 319 1 2)).wf = true ∧ (Instr.iadd (short 319 1 2)).laneOp.isSome = true ∧ (Instr.iadd (short 319 1 2)).longForm = false := by decide
theorem witness_memory : memoryForm (far) := ⟨rfl, rfl⟩
/-- R330: the first step after reset finds nothing to do but time: no program is loaded by the machine itself. -/
theorem test_reset : State.reset.agenda = [] ∧ State.reset.mem.wf = true := by decide

/-! ### Witnesses for traps, consumed errors and page faults -/

/-- Lane 0 with the scratch address 0x41 in the register pair v8. -/
def crooked : State := one (fun b => { b with lit := some { mask := 1 }, v := [(256, 0x41), (288, 0xFFFE0000)], s := [(6, 0xFFFE000000000041)] })
theorem witness_first_failure (x : LaneOp) (off : Option Field) (w : Bool) (hx : x = op 3 8 323 0 0x22) (ho : off = none ∨ off = some .b) :
    firstFailure 3 0 3 1 (crooked.laneAddr x .a off) 4 w crooked ∧ crooked.myBlock.halt = none ∧ crooked.myBlock.mirror = none ∧ (∀ y, crooked.me.unit crooked.cur.unit = some y → y.held = none) := by
  subst hx
  refine ⟨⟨by decide, by decide, by decide, rfl, ?_, fun j h => absurd h (by omega), fun k j h2 h3 hj ha => ?_, ?_⟩, rfl, rfl, fun y h => by cases h; rfl⟩
  · rcases ho with rfl | rfl <;> cases w <;> decide +kernel
  · cases only_zero rfl ⟨hj, ha⟩
    have : k = 2 := by omega
    subst this
    rcases ho with rfl | rfl <;> cases w <;> decide +kernel
  · rcases ho with rfl | rfl <;> cases w <;> decide +kernel
/-- R158: an `LD` of 4 bytes at 0x41 traps MEM.MISALIGNED in lane 0, and loads nothing. -/
theorem test_ld_misaligned : after (.ld (op 3 8 323 0 2)) crooked (fun t => t.me.tcg == 1 && t.me.tdr0 == 3 && t.me.tdr1 == 1 && t.me.tdr2 == 0x41 && t.me.v.get 96 0 == 0) = true := by decide +kernel
theorem witness_scalar_failure (w : Bool) : crooked.checkFault 3 5 0 0 (crooked.rs 6 + (0 : BitVec 14).signExtend 64) Width.w32.bytes w true = some 3
    ∧ crooked.checkFault 2 5 0 0 (crooked.rs 6 + (0 : BitVec 14).signExtend 64) Width.w32.bytes w true = none := by
  cases w <;> decide +kernel
/-- Example 6.1: three units, `ix` 19 in lanes 0 to 4 and 6 to 7 and 20 in lane 5, and the word `IADD v1, v[ix+4], v2`. -/
def example61 : State :=
  { st (fun _ => { units := 3, ix := (List.range 8).map (fun i => (i, if i = 5 then 20 else 19)), regions := [{}], running := true, lit := some { mask := 0xFF } }) with
    progs := [(4, { versions := [(0, { lcode := [0x700000384010000000000000] })] })], agenda := [.lane 5 0 0] }
def word61 : LaneWord := { pred := 7, neg := false, y := false, body := .one (.iadd (op 1 388 2)) }
theorem test_example_6_1 : (match step example61 with | .next t => (t.beamAt 5 0).tcg == 4 && (t.beamAt 5 0).tdr0 == 0x10001 && (t.beamAt 5 0).tdr1 == 0x20 && (t.beamAt 5 0).tdr2 == 24 | _ => false) = true := by decide +kernel
/-- The state in which the fields of the word of Example 6.1 are read. -/
def fields61 : State := { example61 with agenda := [], cur := { blk := 5, act := 0xFF } }
theorem witness_bounds : example61.mayLane 5 0 0 = true ∧ (example61.block 5).halt = none ∧ (example61.beamAt 5 0).unit 0 = some { mask := 0xFF } ∧ (example61.codeOf 5).lcode[(0 : W64).toNat]? = some 0x700000384010000000000000
    ∧ State.handOut (State.slotsOf word61.body) (example61.beamAt 5 0).uq = [(0, [], .iadd (op 1 388 2))] ∧ fields61.laneErr 0x700000384010000000000000 = .ok word61
    ∧ active 5 fields61 ∧ (1, 24) ∈ indirectFields fields61 (.iadd (op 1 388 2)) 5 ∧ 8 * (example61.beamAt 5 0).units ≤ 24
    ∧ (∀ k, k < 32 → fields61.cur.act.getLsbD k = true → k ≠ 5 → indirectFields fields61 (.iadd (op 1 388 2)) k = [(1, 23)])
    ∧ indirectFields fields61 (.iadd (op 1 388 2)) 5 = [(1, 24)] ∧ State.accessMasked fields61 0 [] (.iadd (op 1 388 2)) = none := by
  refine ⟨?_, ?_, ?_, ?_, rfl, rfl, ⟨?_, ?_⟩, ?_, ?_, ?_, ?_, rfl⟩ <;> decide +kernel
theorem witness_forbidden : handling.me.inHandler = true ∧ handling.myBlock.halt.map Halt.stage = some .handler ∧ handling.myBlock.mirror = none ∧ (handling.tenant (handling.tenantOf handling.cur.blk)).fmask = 0 := by decide +kernel
theorem test_handler_forbids : after .tyield handling (fun t => t.me.tcg == 0xC3 && t.me.tdr0 == 0x30009 && t.me.tdr1 == 0x35) = true := by decide +kernel

/-- Lane 0 of `points` with its word poisoned, and a mapped lane and scalar access whose page has not converged. -/
def poisoned : State := points.spoilAt { sp := .scratch 5, addr := 0x40 } 4
theorem witness_consumed : loadChecked 4 (poisoned.laneAddr (op 3 8 323 0 2) .a (some .b)) poisoned ∧ active 0 poisoned
    ∧ (∀ k, active k poisoned → poisoned.locate 5 0 k (poisoned.laneAddr (op 3 8 323 0 2) .a (some .b) k) false = .ok { sp := .scratch 5, addr := 0x40 } none
        ∧ poisoned.poisonedAt { sp := .scratch 5, addr := 0x40 } 4 = (1 : W32).getLsbD k) := by
  refine ⟨⟨first_issue (fun y h => by cases h; rfl) rfl rfl rfl, rfl, ?_, fun i hi => ?_⟩, ⟨?_, rfl⟩, fun k hk => ?_⟩
  · decide +kernel
  · cases only_zero rfl hi; decide +kernel
  · decide
  · cases only_zero rfl hk; decide +kernel
theorem test_consumed : after (.ld (op 3 8 323 0 2)) poisoned (fun t => t.me.dead == 1 && t.me.lit == none && t.me.v.get 96 0 == 0) = true := by decide +kernel
def absent : State :=
  { one (fun b => { b with lit := some { mask := 1 }, v := [(256, 0x10040)], s := [(6, 0x10040)] }) with
    maps := [(10, { stage2 := false, tenant := 3, ctx := 2, va := 0x10000, pa := 0x20000, len := 0x10000, psize := 0, w := true, conv := false })] }
theorem witness_fault : loadChecked 4 (absent.laneAddr (op 3 8 323 0 2) .a (some .b)) absent ∧ absent.me.unit 0 = some { mask := 1 } ∧ active 0 absent
    ∧ absent.locate 5 0 0 (absent.laneAddr (op 3 8 323 0 2) .a (some .b) 0) false = .fault 1 10 none ∧ absent.accessCause 5 0 [(0, absent.rs 6)] 4 0 true = none ∧ absent.me.spark = .none := by
  refine ⟨⟨first_issue (fun y h => by cases h; rfl) rfl rfl rfl, rfl, ?_, fun i hi => ?_⟩, ?_, ⟨?_, rfl⟩, ?_, ?_, ?_⟩
  · decide +kernel
  · cases only_zero rfl hi; decide +kernel
  all_goals decide +kernel
theorem test_fault : after (.ld (op 3 8 323 0 2)) absent (fun t => match t.me.lit with | some y => (match y.held with | some h => h.unfinished == 1 && h.pages == [1] | none => false) | none => false) = true := by decide +kernel


/-! ### Witnesses for joins -/

/-- The one line of the child's revision, at 0x10400, and its parent's view of it. -/
def kidRev : Rev := { ents := revTab, anc := ancestor, mine := ({} : Memory).put 0x10400 (List.replicate 64 2), need := 2 }
def kidLine : Loc := { sp := .phys, addr := 0x30400 }
def merges (p : State) : State := p.setTask 8 (fun k => { k with rev := some kidRev })
theorem one_line (s : State) (page : Option (Nat × Nat × Nat)) (par : Nat) (hp : 8 ≠ par) (h : (s.task 8).rev = some kidRev) (ht : s.mergeAt 8 par 0x10400 = .ok kidLine page)
    (hd : (s.tenant 3).dlbase = 0) (hm : (s.memOf .phys).badWords 0x30400 = []) (hpg : page = some (3, 0x20000, 0)) : oneLine s 8 par kidRev { base := 0x10400, len := 64, etype := 0, merge := 0 } 0x10400 kidLine page := by
  refine ⟨hp, h, ⟨0, ?_, rfl⟩, rfl, ht, nofun, ?_, ?_, ?_, hm, rfl⟩
  · decide +kernel
  · intro t b z e; rw [hpg] at e; cases e; exact .inl hd
  · decide +kernel
  · decide +kernel
theorem witness_one_line : oneLine (merges (parent true)) 8 1 kidRev { base := 0x10400, len := 64, etype := 0, merge := 0 } 0x10400 kidLine (some (3, 0x20000, 0)) ∧ kidRev.counts = List.replicate 8 0
    ∧ (coveredLines kidRev.ents)[0]? = some (0, 0x10400) ∧ (merges (parent true)).joinBusy 8 = false ∧ ((merges (parent true)).task 8).joined = false ∧ ((merges (parent true)).task 8).ended = true := by
  refine ⟨one_line _ _ _ (by decide) ?_ ?_ ?_ ?_ rfl, ?_, ?_, ?_, ?_, ?_⟩ <;> decide +kernel
theorem witness_joined : (((parent true).setTask 8 (fun k => { k with joined := true })).task 8).joined = true ∧ (((parent true).setTask 8 (fun k => { k with joined := true })).task 1).kids.contains 8 = true := by decide +kernel
/-- R263: under merge type 2 an element that both changed takes `P + C - A`. -/
theorem test_merge_sum : (mergeLine { base := 0, len := 64, etype := 0, merge := 2 } (List.replicate 64 1) (List.replicate 64 3) (List.replicate 64 9)).1 = List.replicate 64 11 := by decide +kernel
theorem witness_merge : (List.replicate 64 (1 : Byte)).length = 64 ∧ (10 : Nat) ≤ 10 := by decide
/-- The end of task 1 with the child of `merges` not joined. -/
def endsWithKid : State := { merges (parent true) with blocks := [] }.setTask 1 (fun k => { k with retired := 1, lr := { nblocks := 1 } })
theorem witness_implicit_join : (endsWithKid.task 1).kids.find? (fun c => !(endsWithKid.task c).joined) = some 8 ∧ (endsWithKid.task 8).ended = true ∧ (endsWithKid.task 1).lr.blocks ≤ (endsWithKid.task 1).retired
    ∧ oneLine endsWithKid 8 1 kidRev { base := 0x10400, len := 64, etype := 0, merge := 0 } 0x10400 kidLine (some (3, 0x20000, 0)) := by
  refine ⟨?_, ?_, ?_, one_line _ _ _ (by decide) ?_ ?_ ?_ ?_ rfl⟩ <;> decide +kernel
theorem witness_fork_short : (st).revFree 3 < 2 ∧ (st (fun b => { b with spark := .fork 0 1 2 })).onCore 5 = true := by decide +kernel

/-! ### Witnesses for engines -/

/-- The first row's unit of the loaded entry, in scratch. -/
def unitAt (u : Nat) : Loc := { sp := .scratch 5, addr := 8 * u % 2 ^ 20 }
/-- A page that has not converged. -/
def absentMap : Tab Mapping := [(10, { stage2 := false, tenant := 3, ctx := 2, va := 0x10000, pa := 0x20000, len := 0x10000, psize := 0, w := true, conv := false })]
theorem witness_row : entry.kind = .load ∧ 0 < entry.shape.rows false ∧ rowReadable entry 0 unitAt (loads entry) ∧ (loads entry).eligible 0 1 = some entry ∧ entry.stall = none ∧ entry.shape.width ≠ 4
    ∧ (loads { entry with started := false }).eligible 0 1 = some { entry with started := false } := by
  refine ⟨rfl, ?_, fun a n i h hi => ?_, ?_, rfl, ?_, ?_⟩
  · decide +kernel
  · have key : ∀ p ∈ rowAccesses entry 0, ∀ i, i < p.2 → (loads entry).engLocate 5 (BitVec.ofNat 64 (8 * ((p.1 + BitVec.ofNat 64 i).toNat / 8))) 8 false = .ok (unitAt ((p.1 + BitVec.ofNat 64 i).toNat / 8)) none
        ∧ (loads entry).poisonedAt (unitAt ((p.1 + BitVec.ofNat 64 i).toNat / 8)) 8 = false := by decide +kernel
    exact ⟨⟨none, (key _ h i hi).1⟩, nofun, (key _ h i hi).2⟩
  all_goals decide +kernel
/-- A store of a row of which one element, at 0x200F, lies in bounds. -/
def storing : SEntry := { entry with kind := .store, id := 42, crd := 15 :: List.replicate 8 0 }
def stores : List State.RowStore := [(0xFFFE00000000200F, 1, 0)]
theorem witness_row_store : (loads storing).poisonedAt { sp := .scratch 5, addr := rowAt storing 0 } storing.shape.rowBytes = false ∧ storing.shape.recs = 0
    ∧ (match (loads storing).rowStores 0 1 storing 0 (rowCodes storing 0 (loads storing)) (rowScaleCodes storing 0 (loads storing)) with
        | .ok (ws, t) => decide (ws = stores) && decide (t = loads storing) | .error _ => false) = true := by decide +kernel
theorem witness_stores_reach : storesReach 5 stores unitAt (loads storing) := by
  have only : ∀ y x, lastByte stores y = some x → y = 0xFFFE00000000200F := by
    intro y x h
    simp [lastByte, stores, List.range, List.range.loop] at h
    omega
  have key : ∀ o, o < 8 → ∀ n, n < 9 → 0 < n → o + n ≤ 8 → (loads storing).engLocate 5 (BitVec.ofNat 64 (8 * (0xFFFE00000000200F / 8) + o)) n true = .ok { unitAt (0xFFFE00000000200F / 8) with addr := (unitAt (0xFFFE00000000200F / 8)).addr + o } none := by decide +kernel
  refine ⟨fun y x h => ?_, fun y x z w h g hne => ?_⟩
  · cases only y x h
    exact ⟨nofun, by decide +kernel, fun o n hn ho => ⟨none, nofun, key o (by omega) n (by omega) hn ho⟩⟩
  · cases only y x h; cases only z w g; exact absurd rfl hne

/-- A load whose row lies in a page that has not converged. -/
def farShape : Shape := { entry.shape with base := 0x10040 }
def stalling : SEntry := { entry with shape := farShape }
def unmapped (e : SEntry) : State := { loads e with maps := absentMap }
theorem witness_row_fault : goesOn 0 1 stalling (unmapped stalling) ∧ (match (rowAccesses stalling 0).head? with | some (a, n) => decide (0 < n) && decide ((unmapped stalling).engLocate 5 (BitVec.ofNat 64 (8 * (a.toNat / 8))) 8 false = .fault 1 10 none) | none => false) = true :=
  ⟨⟨by decide +kernel, rfl, rfl⟩, by decide +kernel⟩
/-- The same stalled, with its page back. -/
def stalled : SEntry := { stalling with stall := some 1 }
def back : State := mapped (loads stalled)
theorem witness_row_resume : back.eligible 0 1 = some stalled ∧ stalled.stall = some 1 ∧ back.xlat (back.ctxOf 5) (back.tenantOf 5) (1 * 65536) false = .ok { sp := .phys, addr := 0x30000 } (some (3, 0x20000, 0))
    ∧ stalled.prog + 1 = stalled.shape.rows false ∧ (match back.moveRow 0 1 stalled 0 with | .ok _ => true | .error _ => false) = true := by
  refine ⟨?_, rfl, ?_, ?_, ?_⟩ <;> decide +kernel
/-- A load of two rows, of which the first is next. -/
def tall : SEntry := { entry with shape := { entry.shape with rank := 2, extent := 16 :: 2 :: List.replicate 6 1, box := 16 :: 2 :: List.replicate 6 1 } }
theorem witness_row_next : goesOn 0 1 tall (loads tall) ∧ tall.prog + 1 < tall.shape.rows false ∧ tall.shape.rows false ≤ 4096 ∧ (match (loads tall).moveRow 0 1 tall 0 with | .ok _ => true | .error _ => false) = true :=
  ⟨⟨by decide +kernel, rfl, rfl⟩, by decide +kernel, by decide +kernel, by decide +kernel⟩


/-! ### Witnesses for waits, ends, ladders and calendars -/

theorem witness_lane_masks : ((st id twin).me.unit (st id twin).cur.unit).bind LUnit.held = none ∧ (st id twin).cur.act.getLsbD 0 = true ∧ (st id twin).ownScratch 5 ((st id twin).laneAddr (op 3 8 0 0 0x22) .a none 0) = false
    ∧ (st id twin).ownScratch 5 ((st id twin).laneAddr (op 3 8 323 0x108 2) .a (some .b) 0) = false ∧ (op 3 8 323 0x108 2).long = true ∧ (op 3 8 323 0x108 2).c ≠ 0 := by decide +kernel
/-- R12, R240: an ATOM outside the block's scratch is masked before its operand `b` waits for an entry of the uniform queue. -/
theorem test_masked_first : (State.accessMasked (st id twin) 0 [] (.atom (op 3 8 343 0 0x22))).isSome = true ∧ State.accessMasked (st) 0 [] (.atom (op 3 8 343 0 0x22)) = none := by decide +kernel
theorem witness_no_hit : ((st (waits (some 0) 7 1000000000 false)).beamAt 5 0).watch.findIdx? (·.hit) = none ∧ ((st (waits (some 0) 7 1000000000 false)).beamAt 5 0).spark = .waitw (some 0) false 7 1000000000
    ∧ ((st (waits (some 0) 7 0 false)).block 5).halt = none := by decide +kernel
theorem witness_free_block : (st).slaved 5 = false ∧ (st).leadBusy 5 = false ∧ (st).debugStop 5 = false ∧ (unhandled false { cause := some { grp := 10 } }).debugStop 5 = false ∧ (unhandled true {}).accessesDone 5 = true
    ∧ (unhandled false { cause := some { grp := 9, code := 1 } }).debugStop 5 = true ∧ (st).accessesDone 5 = true := by decide +kernel
/-- A block saved at its yield, whose records lie in a page that reads zeros, with a ladder of its context or none. -/
def atYield (l : Tab Ladder) : State := { mapped (st (fun b => { b with spark := .yield }) (fun k => { k with resident := false, prbase := 0x10000, prsize := 0 })) with tenants := [(3, { hard := 1 })], ladders := l }
def gone : Ladder := { step := 3, cause := .migration, blocks := [5] }
theorem witness_saved (l : Tab Ladder) (hl : l = [] ∨ l = [(2, gone)]) : savedAtYield 5 0 { beam with spark := .yield } (atYield l) := by
  refine ⟨rfl, rfl, rfl, rfl, rfl, rfl, rfl, rfl, rfl, rfl, rfl, rfl, rfl, rfl, rfl, fun r hr => ?_⟩
  have key : ∀ r, r < 64 → (atYield l).recordNow 5 0 r = (some (List.replicate 16 0), atYield l) := by rcases hl with rfl | rfl <;> decide +kernel
  rw [key r hr]
  exact ⟨rfl, fun bs h => by cases h; decide⟩
theorem witness_restored : (atYield [(2, gone)]).ladders.find 2 = some gone ∧ (atYield [(2, gone)]).groupFits ((atYield [(2, gone)]).ladderCtx 2) 0 [5] = true ∧ (atYield []).blocks = [(5, (atYield []).block 5)] ∧ ((atYield []).block 5).core / 4 = 0
    ∧ (atYield []).ladderOf 5 = none ∧ (atYield []).inSlot 5 = true ∧ (atYield []).groupFits ((atYield []).ctxOf 5) 0 [5] = true ∧ (∀ d, ((atYield []).core d).owner = (atYield []).slotOwner d) := by
  refine ⟨?_, ?_, ?_, ?_, ?_, ?_, ?_, fun d => ?_⟩
  iterate 7 decide +kernel
  have hc : (State.afterReset 0).cores = [] := rfl
  simp [State.core, State.slotOwner, atYield, mapped, st, Tab.first, State.now, State.reset, hc]
  rfl
theorem witness_exchange_waits : (({ laddered { stop1 .migration with step := 2 } with cores := [(0, { accReq := some 2 })] } : State).core 0).accReq = some 2
    ∧ ({ laddered { stop1 .migration with step := 2 } with cores := [(0, { accReq := some 2 })] } : State).seOf 5 = [] := by decide +kernel
/-- A block on a core that another tenant's slot has now, and one that its own has. -/
def shared (t : Nat) (c : Core) (f : Beam → Beam := id) : State := { st f with tenants := [(t, { shared := 1, slots := 1 })], cores := [(0, c)] }
theorem witness_slots : (shared 4 {}).blocks = [(5, (shared 4 {}).block 5)] ∧ ((shared 4 {}).block 5).core / 4 = 0 ∧ ((shared 4 {}).block 5).halt = none ∧ (shared 4 {}).inSlot 5 = false ∧ (shared 3 {}).inSlot 5 = true
    ∧ (∃ e, e ∈ (shared 4 {}).tenants ∧ e.2.shared.testBit ((shared 4 {}).block 5).core = true) ∧ ((shared 4 {}).block 5).liveBeams ≠ [] ∧ ((shared 4 { accReq := some 2 }).core 0).accReq = some 2 ∧ (shared 4 { accReq := some 2 }).ctxOf 5 = 2 := by
  refine ⟨?_, ?_, ?_, ?_, ?_, ⟨_, .head _, ?_⟩, ?_, ?_, ?_⟩ <;> decide +kernel
theorem witness_quiet_slot : quietBlock 5 (shared 4 {}) := by
  refine ⟨rfl, rfl, rfl, rfl, nofun, fun e h => ?_⟩
  cases h with
  | head => exact ⟨rfl, rfl⟩
  | tail _ h => cases h

/-! ### Witnesses for memory, records and the fabric -/

theorem witness_granules : (({ st with dies := [(0, { scrubq := [.granules 0 5] })] } : State).die 0).scrubq = [.granules 0 5] := rfl
/-- Slot 1 after an odd read, 1 µs ago and now. -/
theorem witness_reads : ((offered { retries := 16 }).slot 1).readAt + 100 ≤ ({ offered { retries := 16 } with reftime := 100 } : State).now ∧ (offered { retries := 16 }).now < ((offered { retries := 16 }).slot 1).readAt + 100
    ∧ newRecord 1 tenantRec true { offered { retries := 16 } with reftime := 100 } := by
  refine ⟨?_, ?_, ?_, ?_, ?_, ?_, ?_, ?_⟩ <;> decide +kernel
theorem witness_tenant_made : (offered {}).underWay (recTenant tenantRec) = false ∧ (offered {}).unanswered (recTenant tenantRec) = [] ∧ (offered {}).uncleared (recTenant tenantRec) (Tenant.ofRec tenantRec {}) = false ∧ (unmaking 1 1).unanswered 3 = [] := by decide +kernel
theorem witness_export_due : (idle {} { filter with tenant := 0, due := true }).exportDue 0 = true ∧ (idle {}).exportDue 0 = false ∧ ((idle {} { filter with since := 5 }).lantern 0).window ≤ 5 := by decide +kernel
theorem witness_answers : ({ joined with fab := { (joined).fab with reqs := [(65536 * 66 + 9, { msg := { message 1 8 [] with dst := 66 }, who := .scalar 5 0 })] } } : State).fab.reqs.find (65536 * (message 4 8 (payload 4)).src.toNat + (message 4 8 (payload 4)).tag.toNat)
    = some { msg := { message 1 8 [] with dst := 66 }, who := .scalar 5 0 } := by decide +kernel
theorem witness_repeat : ∃ old, (({ joined with fab := { (joined).fab with kept := [(65536 * 66 + 9, { message 5 0 [] with dst := 66, src := 65 })] } } : State).keptOf 66).find (65536 * 66 + 9) = some old ∧ old.dst = (message 2 8 []).src := ⟨_, rfl, rfl⟩
theorem witness_waiting_message : ({ joined with fab := { (joined).fab with out := [{ message 1 8 [] with dst := 66, src := 65 }], routes := [(66, 3)], ports := 8 } } : State).fab.routes.find 66 = some 3
    ∧ (({ joined with fab := { (joined).fab with out := [{ message 1 8 [] with dst := 66, src := 65 }], routes := [(66, 3)], ports := 8 } } : State).link 3).unacked.length + flitsOf (message 1 8 []) ≤ 1024
    ∧ (8 : BitVec 16).getLsbD 3 = true ∧ ((joined).peer 66).state ≠ 2 := by decide +kernel
theorem witness_no_route : (joined { state := 1, node := 66, noRoute := some 0 }).peer 66 = { state := 1, node := 66, noRoute := some 0 } ∧ 0 + 1000 ≤ ({ joined with reftime := 1000 } : State).now ∧ (66 : Nat) / 64 = (65 : BitVec 12).toNat / 64 ∧ (7 : Nat) / 64 ≠ (65 : BitVec 12).toNat / 64
    ∧ (joined).fab.peers = [(2, { state := 1, node := 66 })] ∧ (66 : Nat) < 4096 := by decide +kernel
theorem witness_bad_flit : crcGood (flit 0) = false := by decide +kernel
/-! ### Witnesses for first issues, rows in parts, clears, halts and messages -/

theorem untouched (c q : Nat) {e : SEntry} {s : State} (h1 : e.got = []) (h2 : e.put = 0) (h3 : e.out = []) (h4 : s.fab.reqs = []) : rowUntouched c q e s := ⟨h1, h2, h3, by rw [h4]; nofun⟩
theorem witness_untouched : rowUntouched 0 1 entry (loads entry) ∧ rowUntouched 0 1 storing (loads storing) ∧ rowUntouched 0 1 stalling (unmapped stalling)
    ∧ (∃ x, x ∈ State.loadUnits entry 0 ∧ entry.got.find x.1 = none) ∧ goesOn 0 1 entry (loads entry) :=
  ⟨untouched 0 1 rfl rfl rfl rfl, untouched 0 1 rfl rfl rfl rfl, untouched 0 1 rfl rfl rfl rfl, ⟨_, List.head_mem (by decide +kernel : State.loadUnits entry 0 ≠ []), rfl⟩, ⟨by decide +kernel, rfl, rfl⟩⟩
/-- Example 11.3: a store of another agent may fall between the reads of a row's units: the row takes the old first unit and the new second one. -/
theorem test_row_part : (match ((((loads entry).rowPart 0 1 1).poke { sp := .scratch 5, addr := 0x2000 } (List.replicate 16 9)).moveRow 0 1 { entry with got := [(0xFFFE000000002000 / 8, 0x0807)] } 0) with
    | .ok t => t.peek { sp := .scratch 5, addr := 0x100 } 2 == [7, 8] && t.peek { sp := .scratch 5, addr := 0x108 } 2 == [9, 9]
    | .error _ => false) = true
    ∧ (((loads entry).rowPart 0 1 1).core 0).se.get 1 [] = [{ entry with got := [(0xFFFE000000002000 / 8, 0x0807)] }] := by decide +kernel
theorem witness_fence_held : ∀ p, p < 4 → fenceEntry.mask.testBit p = true → (loads fenceEntry).heldEntry p fenceEntry = false := by decide +kernel
theorem witness_scalar_consumed : unasked (poisoned.rs 6 + (0 : BitVec 14).signExtend 64) poisoned ∧ settled { sp := .scratch 5, addr := 0x40 } Width.w32.bytes poisoned = poisoned
    ∧ poisoned.accessCause 5 0 [(0, poisoned.rs 6)] 4 0 true = none ∧ poisoned.locate 5 0 0 (poisoned.rs 6) false = .ok { sp := .scratch 5, addr := 0x40 } none
    ∧ poisoned.poisonedAt { sp := .scratch 5, addr := 0x40 } 4 = true ∧ unasked (absent.rs 6 + (0 : BitVec 14).signExtend 64) absent ∧ unasked (crooked.rs 6) crooked :=
  ⟨unasked_of _ rfl, rfl, by decide +kernel, by decide +kernel, by decide +kernel, unasked_of _ rfl, unasked_of _ rfl⟩
theorem witness_clear : (mapped (st frags recs)).gated 5 { sp := .phys, addr := 0x3002A } = false ∧ (mapped (st frags recs)).asked (.lane 5 0 1000 2) 2 ((mapped (st frags recs)).recordVa 5 0 2 + 10) 1 = none := by decide +kernel
theorem witness_recheck_poison : (st (overflowed [] none)).poisonedAt { sp := .scratch 5, addr := 0x40 } 64 = false
    ∧ ((st (overflowed [] none)).spoilAt { sp := .scratch 5, addr := 0x40 } 64).poisonedAt { sp := .scratch 5, addr := 0x40 } 64 = true
    ∧ (((st (overflowed [] none)).spoilAt { sp := .scratch 5, addr := 0x40 } 64).beamAt 5 0).watch = ((st (overflowed [] none)).beamAt 5 0).watch := by decide +kernel
theorem witness_unreached : (st (fun b => { b with exited := true })).inFlightTo 5 = false ∧ (unhandled false { cause := some { grp := 10 } }).inFlightTo 5 = false := by decide +kernel
/-- A handler's beam that its debugger has halted. -/
def nested : Halt := { stage := .debug, nested := some { beam := 0, tpc := 1 } }
theorem witness_resume : (unhandled true { stage := .debug }).accessesDone 5 = true ∧ ({ stage := .debug } : Halt).nested = none ∧ ({ stage := .debug } : Halt).quiet = false ∧ nested.quiet = false ∧ (unhandled true nested).accessesDone 5 = true
    ∧ ((unhandled true nested).block 5).halt = some nested ∧ nested.nested = some { beam := 0, tpc := 1 } := by decide +kernel
/-- R226: a scalar word that completes ends the step asked for, with STEP: HALT.DEBUG (9), code 2, for request 7. -/
def steps : State := st id (fun k => { k with stepping := some (0, 7, false) })
theorem test_step_ends : (steps.block 5).halt = none ∧ (steps.beamAt 5 0).exited = false ∧ steps.accessesDone 5 = true
    ∧ (match step { steps with agenda := [.scalar 5 0] } with | .next t => (t.block 5).stepping == none && (t.beamAt 5 0).tcg == 9 && (t.beamAt 5 0).tdr0 == 2 && (t.beamAt 5 0).tdr1 == 7 && (t.beamAt 5 0).spc == 1 | _ => false) = true := by decide +kernel
theorem witness_boundary_of_slot : ((shared 4 { accReq := some 2 }).core 0).accReq.isSome = true ∧ ((shared 4 {}).core 0).accReq = none
    ∧ (shared 4 {} (late none)).accessesDone 5 = false ∧ (shared 4 {} (late none)).seOf 5 = [] ∧ ((shared 4 {} (late none)).core 0).boPend = [] := by decide +kernel
theorem witness_no_engines : (offered {}).cores = [] ∧ ((offered { want := tenantRec }).slot 1).inflight = [] ∧ (awaiting.slot 1).job = 4 := by decide +kernel
theorem witness_hit_reaches : State.hitReach [(66, 0x80, 9), (66, 0x80, 10)] 66 0x80 9 = [9] ∧ State.hitReach [(66, 0x80, 9), (66, 0xC0, 8), (66, 0x80, 10)] 66 0x80 10 = [9, 10] ∧ State.hitReach [(66, 0x80, 9)] 66 0x80 8 = [] := by decide
/-- A port whose one node has an unanswered request. -/
def asking (p : Nat) : State := { joined with fab := { (joined).fab with routes := [(66, p)], ports := 8, reqs := [(65536 * 66 + 9, { msg := { message 1 8 [] with dst := 66, src := 65 }, who := .scalar 5 0 })] } }
theorem witness_turning : (asking 3).fab.routes.find 66 = some 3 ∧ (asking 3).unansweredTo 66 ≠ [] ∧ (3 : Nat) ≠ 4 ∧ (asking 3).fab.reqs.find (65536 * 66 + 9) = some { msg := { message 1 8 [] with dst := 66, src := 65 }, who := .scalar 5 0 } := by decide +kernel
theorem witness_stray : State.openMsg ((joined).link 3 |>.rx.get 0 []) = false ∧ State.openMsg [{ flit 0 with vc := 0, body := fmsgBytes (message 2 128 []) }] = true
    ∧ ((asking 3).unansweredTo 66).filter (fun k => !(asking 3).fab.out.any (fun m => isRequest m.op.toNat && State.reqKey m = k)) ≠ [] := by decide +kernel
/-- The head flit of a message is heard as its sender's. -/
theorem witness_heard : (joined).flitFrom 3 { flit 0 with vc := 0, body := fmsgBytes (message 2 8 (payload 2)) } = some 66 ∧ ((joined).peer 66).node = 66 := by decide +kernel
theorem witness_spdm : [Instr.getVersion [1], .challenge []].map spdmKind = [0, 5].map some := rfl

end Sys2Proof.Tests
end

section
/-! PROOFS. What a lane word with a class V destination leaves and what it leaves alone, said once for every such word, and the
selection (R104), saturating sum (R108) and unpacking (R117) settled from it. -/

namespace Sys2Proof.Machine.State

variable (s : State)

/-! ### A change of the issuing beam reaches no memory and no other block -/

@[simp] theorem memOf_setMe (f : Beam → Beam) (sp : Space) : (s.setMe f).memOf sp = s.memOf sp := by
  cases sp with
  | scratch b =>
    by_cases h : b = s.cur.blk
    · subst h; simp [memOf, setMe]
    · simp [memOf, setMe, block_setBeam_other _ _ _ h]
  | _ => rfl

@[simp] theorem peek_setMe (f : Beam → Beam) (l : Loc) (n : Nat) : (s.setMe f).peek l n = s.peek l n := by
  obtain ⟨sp, a⟩ := l
  cases sp with
  | cap t => rfl
  | _ => simp only [peek, memOf_setMe]

/-! ### A lane register or `ix` after a write of one (R79) -/

@[simp] theorem wv_cur (n i : Nat) (x : W32) : (s.wv n i x).cur = s.cur := rfl
@[simp] theorem wix_cur (i : Nat) (x : W32) : (s.wix i x).cur = s.cur := rfl
@[simp] theorem wv_me (n i : Nat) (x : W32) : (s.wv n i x).me = { s.me with v := s.me.v.put (32 * n + i) x } := by simp [wv]
@[simp] theorem wix_me (i : Nat) (x : W32) : (s.wix i x).me = { s.me with ix := s.me.ix.put i x } := by simp [wix]

/-- A lane register after a write of one: the 32 lanes of the registers stand apart. -/
theorem get_wv (n j r i : Nat) (x : W32) (hi : i < 32) (hj : j < 32) :
    (s.wv n j x).me.v.get (32 * r + i) 0 = if i = j ∧ r = n then x else s.me.v.get (32 * r + i) 0 := by
  have key : 32 * r + i = 32 * n + j ↔ i = j ∧ r = n := by omega
  simp only [wv_me, Tab.get_put, key]

theorem rix_wix (i j : Nat) (x : W32) : (s.wix j x).rix i = if i = j then x else s.rix i := by
  simp only [rix, wix_me, Tab.get_put]

@[simp] theorem rix_wv (n j i : Nat) (x : W32) : (s.wv n j x).rix i = s.rix i := by simp only [rix, wv_me]

end Sys2Proof.Machine.State

namespace Sys2Proof.Machine

theorem mem_lanesOf (m : W32) (i : Nat) : i ∈ lanesOf m ↔ i < 32 ∧ m.getLsbD i = true := by simp [lanesOf]

end Sys2Proof.Machine

namespace Sys2Proof.LaneWords
open Sys2Proof Sys2Proof.Machine Sys2Proof.Machine.State Sys2Proof.Claims

/-- `t` is `s` but for the issuing beam: the shared frame of the words that write its registers alone. -/
structure OnlyMe (s t : State) : Prop where
  beam : onlyBeam s.cur.blk s.cur.beam s t
  cur : t.cur = s.cur
  fab : t.fab = s.fab

namespace OnlyMe

theorem refl (s : State) : OnlyMe s s :=
  ⟨⟨rfl, fun _ _ => rfl, rfl, fun _ _ => rfl, fun _ => rfl⟩, rfl, rfl⟩

theorem setMe (s : State) (f : Beam → Beam) : OnlyMe s (s.setMe f) where
  beam := ⟨rfl, fun _ h => block_setBeam_other _ _ _ h, by simp [State.setMe], fun _ h => beamAt_setBeam_other _ _ h,
    fun l => peek_setMe s f l 1⟩
  cur := rfl
  fab := rfl

theorem trans {s t u : State} (h : OnlyMe s t) (k : OnlyMe t u) : OnlyMe s u := by
  obtain ⟨⟨hs, hblock, hmine, hbeam, hpeek⟩, hcur, hfab⟩ := h
  obtain ⟨⟨ks, kblock, kmine, kbeam, kpeek⟩, kcur, kfab⟩ := k
  rw [hcur] at kblock kmine kbeam
  refine ⟨⟨?_, fun c hc => (kblock c hc).trans (hblock c hc), ?_, fun i hi => (kbeam i hi).trans (hbeam i hi),
    fun l => (kpeek l).trans (hpeek l)⟩, kcur.trans hcur, kfab.trans hfab⟩
  · unfold onlyBlocks at *; rw [ks, hs]
  · rw [kmine, hmine]

/-- The way a word goes on is said of the word being issued alone. -/
theorem flow {s t : State} (h : OnlyMe s t) (g : Flow) :
    onlyBeam s.cur.blk s.cur.beam s (t.flow g) ∧ (t.flow g).cur = { s.cur with flow := g } ∧ (t.flow g).fab = s.fab := by
  obtain ⟨⟨hs, hrest⟩, hcur, hfab⟩ := h
  refine ⟨⟨?_, hrest⟩, ?_, hfab⟩
  · unfold onlyBlocks at *; rw [hs]; rfl
  · simp [State.flow, setCur, hcur]

end OnlyMe

/-! ### One lane of a class V destination -/

section WriteV
variable (s : State) (code j : Nat) (x : W32)

/-- R51, R96: a class V destination names a lane register, or `ix`, or discards. -/
theorem writeV_eq : s.writeV code j x
    = match vTarget s code j with
      | some r => s.wv r j x
      | none => if code = 332 then s.wix j x else s := by
  unfold writeV vTarget
  by_cases h : code < 320
  · simp [h]
  · by_cases h' : 384 ≤ code
    · have : code ≠ 332 := by omega
      simp [h, h', this]
    · simp [h, h']

/-- `ix` is no lane register. -/
theorem vTarget_ix (i : Nat) : vTarget s 332 i = none := rfl

theorem onlyMe_writeV : OnlyMe s (s.writeV code j x) := by
  rw [writeV_eq]
  split
  · exact .setMe s _
  · split
    · exact .setMe s _
    · exact .refl s

theorem writeV_me : (s.writeV code j x).me = { s.me with v := (s.writeV code j x).me.v, ix := (s.writeV code j x).me.ix } := by
  rw [writeV_eq]
  split
  · simp only [wv_me]
  · split
    · simp only [wix_me]
    · rfl

theorem rix_writeV (i : Nat) : (s.writeV code j x).rix i = if i = j ∧ code = 332 then x else s.rix i := by
  rw [writeV_eq]
  split
  next r hr =>
    have : code ≠ 332 := fun h => by simp [h, vTarget_ix] at hr
    simp [this]
  next =>
    by_cases h : code = 332
    · simp [h, rix_wix]
    · simp [h]

/-- What a destination code names in a lane stands while the word writes: an indirect one does not write `ix`. -/
theorem vTarget_writeV (i : Nat) : vTarget (s.writeV code j x) code i = vTarget s code i := by
  unfold vTarget
  rw [rix_writeV]
  split
  · rfl
  · split
    · have : code ≠ 332 := by omega
      simp [this]
    · rfl

theorem get_writeV (r i : Nat) (hi : i < 32) (hj : j < 32) :
    (s.writeV code j x).me.v.get (32 * r + i) 0 = if i = j ∧ vTarget s code j = some r then x else s.me.v.get (32 * r + i) 0 := by
  rw [writeV_eq]
  split
  next n hn => rw [get_wv s n j r i x hi hj, hn]; simp [eq_comm]
  next hn =>
    rw [hn]
    split <;> simp

end WriteV

/-! ### All live active lanes of a class V destination -/

section WriteLanes
variable (code : Nat) (f : Nat → W32)

/-- The writes of the lanes `l`, one after the other. -/
def writeList (l : List Nat) (s : State) : State := l.foldl (fun t i => t.writeV code i (f i)) s

theorem onlyMe_writeList (l : List Nat) (s : State) : OnlyMe s (writeList code f l s) := by
  induction l generalizing s with
  | nil => exact .refl s
  | cons j r ih => exact (onlyMe_writeV s code j (f j)).trans (ih _)

theorem writeList_me (l : List Nat) (s : State) :
    (writeList code f l s).me = { s.me with v := (writeList code f l s).me.v, ix := (writeList code f l s).me.ix } := by
  induction l generalizing s with
  | nil => rfl
  | cons j r ih =>
    have hr := ih (s.writeV code j (f j))
    rw [writeV_me] at hr
    exact hr

theorem rix_writeList (l : List Nat) (s : State) (i : Nat) :
    (writeList code f l s).rix i = if i ∈ l ∧ code = 332 then f i else s.rix i := by
  induction l generalizing s with
  | nil => simp [writeList]
  | cons j r ih =>
    have hr := ih (s.writeV code j (f j))
    rw [rix_writeV] at hr
    refine hr.trans ?_
    by_cases hj : i = j
    · subst hj; by_cases hc : code = 332 <;> simp [hc]
    · simp [hj]

theorem get_writeList (l : List Nat) (hl : ∀ j ∈ l, j < 32) (s : State) (r i : Nat) (hi : i < 32) :
    (writeList code f l s).me.v.get (32 * r + i) 0
      = if i ∈ l ∧ vTarget s code i = some r then f i else s.me.v.get (32 * r + i) 0 := by
  induction l generalizing s with
  | nil => simp [writeList]
  | cons j q ih =>
    have hq := ih (fun k hk => hl k (List.mem_cons_of_mem j hk)) (s.writeV code j (f j))
    rw [vTarget_writeV, get_writeV s code j (f j) r i hi (hl j List.mem_cons_self)] at hq
    refine hq.trans ?_
    by_cases hj : i = j
    · subst hj; by_cases hv : vTarget s code i = some r <;> simp [hv]
    · simp [hj]

end WriteLanes

theorem mapV_eq (s : State) (x : LaneOp) (f : State → Nat → W32) :
    s.mapV x f = (writeList x.d.toNat (f s) (lanesOf s.cur.act) s).flow .go := rfl

/-- R96: a per-lane operation writes its result in the live active lanes of its destination, and nothing else. -/
theorem laneResult_mapV (s : State) (x : LaneOp) (f : State → Nat → W32) : laneResult x.d.toNat (f s) s (s.mapV x f) := by
  rw [mapV_eq]
  obtain ⟨hbeam, hcur, hfab⟩ := (onlyMe_writeList x.d.toNat (f s) (lanesOf s.cur.act) s).flow .go
  refine ⟨hbeam, hcur, hfab, writeList_me x.d.toNat (f s) (lanesOf s.cur.act) s, fun i r hi => ?_, fun i hi => ?_⟩
  · have hget := get_writeList x.d.toNat (f s) (lanesOf s.cur.act) (fun j hj => ((mem_lanesOf _ j).1 hj).1) s r i hi
    simp only [mem_lanesOf, hi, true_and] at hget
    exact hget
  · have hrix := rix_writeList x.d.toNat (f s) (lanesOf s.cur.act) s i
    simp only [mem_lanesOf, hi, true_and] at hrix
    exact hrix

/-- R100: what a two-source operation leaves. -/
theorem lane2_laneResult (s : State) (x : LaneOp) (f : W32 → W32 → W32) :
    ∃ t, lane2 x f s = .next t ∧ laneResult x.d.toNat (fun i => f (s.src x .a i) (s.src x .b i)) s t :=
  ⟨_, rfl, laneResult_mapV s x _⟩

/-- R100, R49: what a three-source operation leaves. -/
theorem lane3_laneResult (s : State) (x : LaneOp) (f : W32 → W32 → W32 → W32) :
    ∃ t, lane3 x f s = .next t ∧ laneResult x.d.toNat (fun i => f (s.src x .a i) (s.src x .b i) (s.src3 x i)) s t :=
  ⟨_, rfl, laneResult_mapV s x _⟩

/-! ### ISEL (R104) -/

theorem exec_isel (x : LaneOp) (s : State) : exec (.isel x) s = lane3 x (fun a b c => if c ≠ 0 then a else b) s := rfl

/-- R96: a predicate code gives 0 or 1. -/
theorem operand_predicate (s : State) (k p : Nat) (imm : W32) (i : Nat) (hp : p < 8) :
    s.operand (336 + p) k imm i = if (s.rp p).getLsbD i then 1 else 0 := by
  have h320 : ¬ 336 + p < 320 := by omega
  have h332 : ¬ 336 + p < 332 := by omega
  have h344 : 336 + p < 344 := by omega
  have hcodes : 336 + p ≠ 320 ∧ 336 + p ≠ 321 ∧ 336 + p ≠ 322 ∧ 336 + p ≠ 323 ∧ 336 + p ≠ 332 := by omega
  obtain ⟨huq, hlane, hzero, himm, hix⟩ := hcodes
  have hsub : 336 + p - 336 = p := by omega
  simp only [operand, h320, huq, hlane, hzero, himm, h332, hix, h344, hsub, if_true, if_false]

/-- Settles O23: the selector is the third source of a three-source operation, the old destination in a short slot. -/
theorem iselSelects : Obligations.IselSelects := by
  unfold Obligations.IselSelects
  refine ⟨fun x sp h => ?_, fun s x => ?_, operand_predicate⟩
  · obtain rfl := Option.some.inj h
    exact ⟨rfl, beq_iff_eq, fun hl => by simp [hl], rfl, rfl⟩
  · rw [exec_isel]
    exact lane3_laneResult s x _

/-! ### IADDS (R108) -/

/-- R108: the two clamps of the model are the rule's. -/
theorem exec_iadds (x : LaneOp) (s : State) : exec (.iadds x) s = lane2 x (fun a b =>
    if x.m.toNat % 2 = 0 then BitVec.ofInt 32 (max (-(2 ^ 31)) (min (2 ^ 31 - 1) (a.toInt + b.toInt)))
    else BitVec.ofNat 32 (min (2 ^ 32 - 1) (a.toNat + b.toNat))) s := by
  have harm : exec (.iadds x) s = execIadds x s := rfl
  have hmode : x.mb 0 1 = x.m.toNat % 2 := by simp [LaneOp.mb]
  rw [harm, execIadds, hmode]
  congr 1
  funext a b
  rcases Nat.mod_two_eq_zero_or_one x.m.toNat with hs | hu
  · simp [hs, w32, satI32]
  · simp [hu, Nat.min_comm]

/-- Settles O24: a two-source operation with the rule's clamped sums. -/
theorem iaddsSaturates : Obligations.IaddsSaturates := by
  unfold Obligations.IaddsSaturates
  refine ⟨fun x sp h => ?_, fun s x => ?_⟩
  · obtain rfl := Option.some.inj h
    refine ⟨rfl, ?_⟩
    simp only [LaneOp.below, decide_eq_true_eq]
    omega
  · rw [exec_iadds]
    exact lane2_laneResult s x _

/-! ### UNPK (R117) -/

/-- Bits [p + n - 1 : p] of a word as a number, bit by bit. -/
theorem testBit_bitField (a : W32) (p n j : Nat) : (a.toNat / 2 ^ p % 2 ^ n).testBit j = (decide (j < n) && a.getLsbD (p + j)) := by
  rw [Nat.testBit_mod_two_pow, Nat.testBit_div_two_pow, Nat.add_comm j p]; rfl

theorem getLsbD_zeroExtended_bitField (a : W32) (p n j : Nat) (hj : j < 32) :
    (BitVec.ofNat 32 (a.toNat / 2 ^ p % 2 ^ n)).getLsbD j = (decide (j < n) && a.getLsbD (p + j)) := by
  rw [BitVec.getLsbD_ofNat, testBit_bitField]; simp [hj]

theorem getLsbD_signExtended_bitField (a : W32) (p n j : Nat) (hn : 0 < n) (hj : j < 32) :
    (w32 (signedOf n (a.toNat / 2 ^ p % 2 ^ n))).getLsbD j = if j < n then a.getLsbD (p + j) else a.getLsbD (p + n - 1) := by
  have htop : p + (n - 1) = p + n - 1 := by omega
  change (BitVec.signExtend 32 (BitVec.ofNat n (a.toNat / 2 ^ p % 2 ^ n))).getLsbD j = _
  rw [BitVec.getLsbD_signExtend, BitVec.msb_eq_getLsbD_last, BitVec.getLsbD_ofNat, BitVec.getLsbD_ofNat, testBit_bitField, testBit_bitField, htop]
  have hlast : n - 1 < n := by omega
  by_cases h : j < n
  · simp only [h, hj, decide_true, Bool.true_and, if_true]
  · simp only [h, hj, hlast, decide_true, Bool.true_and, if_false]

theorem packWidth_eq (x : LaneOp) : packWidth x = if x.m.toNat % 4 = 0 then 16 else if x.m.toNat % 4 = 1 then 8 else 4 := by
  have hmb : x.mb 0 2 = x.m.toNat % 4 := by simp [LaneOp.mb]
  unfold packWidth
  rw [hmb]
  split
  next h0 => rw [if_pos h0]
  next h1 => simp [h1]
  next h0 h1 => rw [if_neg h0, if_neg h1]

theorem packWidth_pos (x : LaneOp) : 0 < packWidth x := by
  rw [packWidth_eq]
  split
  · decide
  · split <;> decide

/-- One bit of a modifier field. -/
theorem mb_one_iff (x : LaneOp) (k : Nat) : x.mb k 1 = 1 ↔ x.m.getLsbD k = true := by
  rw [BitVec.getLsbD, Nat.testBit_eq_decide_div_mod_eq, decide_eq_true_eq]; rfl

/-- R117: element `e` of `n` bits of a word, sign- or zero-extended. -/
def unpkValue (signed : Bool) (n : Nat) (a b : W32) : W32 :=
  let v := a.toNat / 2 ^ (n * (b.toNat % 8 % (32 / n))) % 2 ^ n
  if signed then w32 (signedOf n v) else BitVec.ofNat 32 v

theorem getLsbD_unpkValue (signed : Bool) (n : Nat) (a b : W32) (hn : 0 < n) (j : Nat) (hj : j < 32) :
    (unpkValue signed n a b).getLsbD j
      = if j < n then a.getLsbD (n * (b.toNat % 8 % (32 / n)) + j) else signed && a.getLsbD (n * (b.toNat % 8 % (32 / n)) + n - 1) := by
  cases signed with
  | true => exact getLsbD_signExtended_bitField a _ n j hn hj
  | false =>
    refine (getLsbD_zeroExtended_bitField a _ n j hj).trans ?_
    by_cases h : j < n <;> simp [h]

theorem exec_unpk (x : LaneOp) (s : State) : exec (.unpk x) s = lane2 x (unpkValue (x.m.getLsbD 2) (packWidth x)) s := by
  have harm : exec (.unpk x) s = execUnpk x s := rfl
  rw [harm, execUnpk]
  simp only [mb_one_iff]
  rfl

/-- Settles O25: the element is a bit field of the source, and its extension is read off bit by bit. -/
theorem unpkExtracts : Obligations.UnpkExtracts := by
  unfold Obligations.UnpkExtracts
  refine ⟨fun x sp h => ?_, fun s x _ => ?_⟩
  · obtain rfl := Option.some.inj h
    refine ⟨rfl, ?_⟩
    simp only [LaneOp.below, LaneOp.mb, Bool.and_eq_true, bne_iff_ne, decide_eq_true_eq]
    omega
  · rw [exec_unpk, ← packWidth_eq]
    obtain ⟨t, ht, hres⟩ := lane2_laneResult s x (unpkValue (x.m.getLsbD 2) (packWidth x))
    exact ⟨t, ht, _, hres, fun i j hj => getLsbD_unpkValue _ _ _ _ (packWidth_pos x) j hj⟩

end Sys2Proof.LaneWords
end

section
/-! PROOFS. The lanes of a tile and the bits of a mask, said once for the cross-lane words; what SCAN (R141) and
MATCH (R142) answer settled from them. -/

namespace Sys2Proof.Machine

/-! ### The bits of a mask -/

/-- The number whose bits below `n` are the ones that `p` marks: what `maskOf` sums, for any width. -/
def maskNat (p : Nat → Bool) (n : Nat) : Nat := (List.range n).foldl (fun r i => if p i then r + 2 ^ i else r) 0

theorem maskOf_eq_ofNat_maskNat (p : Nat → Bool) : maskOf p = BitVec.ofNat 32 (maskNat p 32) := rfl

theorem maskNat_succ (p : Nat → Bool) (n : Nat) : maskNat p (n + 1) = if p n then maskNat p n + 2 ^ n else maskNat p n := by
  simp [maskNat, List.range_succ]

/-- Each power of two is added above the bits that already stand, so no addition carries. -/
theorem testBit_maskNat (p : Nat → Bool) (n j : Nat) : (maskNat p n).testBit j = (decide (j < n) && p j) := by
  induction n generalizing j with
  | zero => simp [maskNat]
  | succ n ih =>
    have hlt : maskNat p n < 2 ^ n := Nat.lt_pow_two_of_testBit _ fun i hi => by simp [ih, Nat.not_lt.mpr hi]
    have hor : maskNat p n + 2 ^ n = maskNat p n ||| 2 ^ n := by
      simpa [Nat.add_comm, Nat.or_comm] using Nat.two_pow_add_eq_or_of_lt hlt 1
    rw [maskNat_succ]
    by_cases hj : j = n
    · subst hj
      by_cases hp : p j <;> simp [hp, hor, ih]
    · have hbit : (maskNat p n + 2 ^ n).testBit j = (maskNat p n).testBit j := by
        simp [hor, Ne.symm hj]
      have hbelow : j < n + 1 ↔ j < n := by omega
      simp only [apply_ite (Nat.testBit · j), hbit, ite_self, ih, hbelow]

@[simp] theorem getLsbD_maskOf (p : Nat → Bool) (j : Nat) : (maskOf p).getLsbD j = (decide (j < 32) && p j) := by
  rw [maskOf_eq_ofNat_maskNat, BitVec.getLsbD_ofNat, testBit_maskNat, ← Bool.and_assoc, Bool.and_self]

end Sys2Proof.Machine

namespace Sys2Proof.CrossLane
open Sys2Proof Sys2Proof.Machine Sys2Proof.Machine.State Sys2Proof.Claims Sys2Proof.LaneWords

/-! ### The lanes of a tile (R134) -/

theorem mem_tileLanes (s : State) (i j : Nat) :
    j ∈ s.tileLanes i ↔ j < 32 ∧ s.cur.act.getLsbD j = true ∧ j / s.me.tile = i / s.me.tile := by
  simp [tileLanes, mem_lanesOf, and_assoc]

/-- The lanes of a tile that also satisfy `q`, as one selection from the 32 lanes: the order stays ascending. -/
theorem filter_tileLanes (s : State) (i : Nat) (q : Nat → Bool) :
    (s.tileLanes i).filter q
      = (List.range 32).filter (fun j => s.cur.act.getLsbD j && j / s.me.tile == i / s.me.tile && q j) := by
  simp only [tileLanes, lanesOf, List.filter_filter]
  refine List.filter_congr fun j _ => ?_
  rw [Bool.and_comm, Bool.and_comm (decide _), Bool.beq_eq_decide_eq]

/-! ### SCAN (R141) -/

/-- R141: what lane `i` receives, its set S(i) cut from the lanes of its tile. -/
def scanValue (x : LaneOp) (s : State) (i : Nat) : W32 :=
  s.combine x (x.mb 0 4) ((s.tileLanes i).filter (fun j => if x.mb 4 1 = 1 then decide (j < i) else decide (j ≤ i)))

theorem exec_scan (x : LaneOp) (s : State) : exec (.scan x) s = .next (s.mapV x (scanValue x)) := rfl

theorem scanValue_eq_foldl (x : LaneOp) (s : State) (i : Nat) :
    scanValue x s i = ((List.range 32).filter (fun j => s.cur.act.getLsbD j && j / s.me.tile == i / s.me.tile
        && (if x.mb 4 1 = 1 then decide (j < i) else decide (j ≤ i)))).foldl
      (fun r j => s.crossOp (x.mb 0 4) r (s.src x .a j)) (crossId (x.mb 0 4)) := by
  rw [scanValue, filter_tileLanes, combine]

/-- Settles O33: the lanes whose values SCAN combines are one selection from the 32 lanes, in ascending order. -/
theorem scanForms : Obligations.ScanForms := by
  unfold Obligations.ScanForms
  intro s x
  simp only [← scanValue_eq_foldl]
  exact ⟨_, exec_scan x s, laneResult_mapV s x (scanValue x)⟩

/-! ### MATCH (R142) -/

/-- R142: the lanes of lane `i`'s tile that hold its value. -/
def matchMask (x : LaneOp) (s : State) (i : Nat) : W32 :=
  maskOf (fun j => (s.tileLanes i).contains j && s.src x .a j == s.src x .a i)

theorem exec_match (x : LaneOp) (s : State) : exec (.match x) s = .next (s.mapV x (matchMask x)) := rfl

theorem getLsbD_matchMask (x : LaneOp) (s : State) (i j : Nat) :
    (matchMask x s i).getLsbD j = true
      ↔ j < 32 ∧ j / s.me.tile = i / s.me.tile ∧ s.cur.act.getLsbD j = true ∧ s.src x .a j = s.src x .a i := by
  simp only [matchMask, getLsbD_maskOf, Bool.and_eq_true, decide_eq_true_eq, List.contains_iff_mem, mem_tileLanes, beq_iff_eq]
  exact ⟨fun ⟨hj, ⟨_, hact, htile⟩, hval⟩ => ⟨hj, htile, hact, hval⟩,
    fun ⟨hj, htile, hact, hval⟩ => ⟨hj, ⟨hj, hact, htile⟩, hval⟩⟩

/-- Settles O34: bit `j` of the mask says that `j` is a lane of the tile with the same value; a lane agrees with itself. -/
theorem matchForms : Obligations.MatchForms := by
  unfold Obligations.MatchForms
  intro s x
  refine ⟨_, exec_match x s, _, laneResult_mapV s x (matchMask x), fun i j _ _ hj => ?_, fun i hi hact => ?_⟩
  · rw [getLsbD_matchMask]
    exact and_iff_right hj
  · exact (getLsbD_matchMask x s i i).2 ⟨hi, rfl, hact, rfl⟩

end Sys2Proof.CrossLane
end
